-- ==== Sys2Proof/Word.lean ====
section
/-! DEFINITION. The word types of the CHIP-8 interpreter core (00_scope.md rules R9, R12, R13; 10_state.md rules R31-R40). -/

namespace Sys2Proof

/-- An 8-bit unsigned value: a memory byte (R31), a V register (R32), a timer (R39, R40). -/
abbrev Byte := BitVec 8

/-- A 16-bit value: an instruction word (R100), I (R34), pc (R35), a stack slot (R37). -/
abbrev Word := BitVec 16

/-- A 12-bit address operand NNN (30_encoding.md rule R101). -/
abbrev Addr := BitVec 12

/-- A register number 0-15, the meaning of the X and Y fields (R32, R101). -/
abbrev Reg := Fin 16

/-- A sprite row count 0-15, the meaning of the N field of DXYN (R101, R102). -/
abbrev Rows := Fin 16

end Sys2Proof
end

