-- ==== Sys2Proof/Syntax.lean ====
section
/-! DEFINITION. The instructions: one constructor per row of spec/opcode_table.json, in the table's order, named by the spec's
normative pattern (30_encoding.md rules R103, R110, R112); the conventional mnemonic stands in each docstring. Operands carry
their ranges in their types, so every term is a well-formed instruction. -/

namespace Sys2Proof

inductive Instr where
  /-- `00E0` CLS (R300) -/
  | op00E0
  /-- `00EE` RET (R180) -/
  | op00EE
  /-- `1NNN` JP addr (R181) -/
  | op1NNN (nnn : Addr)
  /-- `2NNN` CALL addr (R182) -/
  | op2NNN (nnn : Addr)
  /-- `3XNN` SE Vx, byte (R183) -/
  | op3XNN (x : Reg) (nn : Byte)
  /-- `4XNN` SNE Vx, byte (R184) -/
  | op4XNN (x : Reg) (nn : Byte)
  /-- `5XY0` SE Vx, Vy (R185) -/
  | op5XY0 (x y : Reg)
  /-- `6XNN` LD Vx, byte (R220) -/
  | op6XNN (x : Reg) (nn : Byte)
  /-- `7XNN` ADD Vx, byte (R221) -/
  | op7XNN (x : Reg) (nn : Byte)
  /-- `8XY0` LD Vx, Vy (R222) -/
  | op8XY0 (x y : Reg)
  /-- `8XY1` OR Vx, Vy (R223) -/
  | op8XY1 (x y : Reg)
  /-- `8XY2` AND Vx, Vy (R224) -/
  | op8XY2 (x y : Reg)
  /-- `8XY3` XOR Vx, Vy (R225) -/
  | op8XY3 (x y : Reg)
  /-- `8XY4` ADD Vx, Vy (R227) -/
  | op8XY4 (x y : Reg)
  /-- `8XY5` SUB Vx, Vy (R228) -/
  | op8XY5 (x y : Reg)
  /-- `8XY6` SHR Vx (R230); the Y field is in the word and is not read (R103) -/
  | op8XY6 (x y : Reg)
  /-- `8XY7` SUBN Vx, Vy (R229) -/
  | op8XY7 (x y : Reg)
  /-- `8XYE` SHL Vx (R231); the Y field is in the word and is not read (R103) -/
  | op8XYE (x y : Reg)
  /-- `9XY0` SNE Vx, Vy (R186) -/
  | op9XY0 (x y : Reg)
  /-- `ANNN` LD I, addr (R260) -/
  | opANNN (nnn : Addr)
  /-- `BNNN` JP V0, addr (R187) -/
  | opBNNN (nnn : Addr)
  /-- `CXNN` RND Vx, byte (R232) -/
  | opCXNN (x : Reg) (nn : Byte)
  /-- `DXYN` DRW Vx, Vy, nibble (R301) -/
  | opDXYN (x y : Reg) (n : Rows)
  /-- `EX9E` SKP Vx (R330) -/
  | opEX9E (x : Reg)
  /-- `EXA1` SKNP Vx (R331) -/
  | opEXA1 (x : Reg)
  /-- `FX07` LD Vx, DT (R332) -/
  | opFX07 (x : Reg)
  /-- `FX15` LD DT, Vx (R335) -/
  | opFX15 (x : Reg)
  /-- `FX18` LD ST, Vx (R336) -/
  | opFX18 (x : Reg)
  /-- `FX0A` LD Vx, K (R334) -/
  | opFX0A (x : Reg)
  /-- `FX1E` ADD I, Vx (R261) -/
  | opFX1E (x : Reg)
  /-- `FX29` LD F, Vx (R262) -/
  | opFX29 (x : Reg)
  /-- `FX33` LD B, Vx (R263) -/
  | opFX33 (x : Reg)
  /-- `FX55` LD [I], Vx (R264) -/
  | opFX55 (x : Reg)
  /-- `FX65` LD Vx, [I] (R265) -/
  | opFX65 (x : Reg)
deriving DecidableEq, Repr

end Sys2Proof
end

