-- ==== Sys2Proof/WellFormed.lean ====
section
/-! DEFINITION. Well-formedness of an instruction's operand fields against the bit positions of 30_encoding.md rules R101 and
R103: every value fits its field, every field lies in the operand part of the word, and no two fields overlap. The operand
types of Syntax.lean already carry the ranges, so every term of `Instr` passes (Sys2Proof/Laws/WellFormed.lean); the
checks refuse raw field lists that no term of `Instr` has (Sys2Proof/Tests/Slice0.lean). -/

namespace Sys2Proof

/-- An operand field: its bits hi..lo of the instruction word and the value it holds. -/
structure Field where
  hi : Nat
  lo : Nat
  value : Nat
deriving DecidableEq, Repr

/-- The X field, w[11:8] (R101). -/
def Field.x (r : Reg) : Field := ⟨11, 8, r.val⟩

/-- The Y field, w[7:4] (R101). -/
def Field.y (r : Reg) : Field := ⟨7, 4, r.val⟩

/-- The N field, w[3:0] (R101). -/
def Field.n (k : Rows) : Field := ⟨3, 0, k.val⟩

/-- The NN field, w[7:0] (R101). -/
def Field.nn (b : Byte) : Field := ⟨7, 0, b.toNat⟩

/-- The NNN field, w[11:0] (R101). -/
def Field.nnn (a : Addr) : Field := ⟨11, 0, a.toNat⟩

/-- The operand fields of an instruction, by its format (R103). -/
def Instr.fields : Instr → List Field
  | .op00E0 => []
  | .op00EE => []
  | .op1NNN nnn => [.nnn nnn]
  | .op2NNN nnn => [.nnn nnn]
  | .op3XNN x nn => [.x x, .nn nn]
  | .op4XNN x nn => [.x x, .nn nn]
  | .op5XY0 x y => [.x x, .y y]
  | .op6XNN x nn => [.x x, .nn nn]
  | .op7XNN x nn => [.x x, .nn nn]
  | .op8XY0 x y => [.x x, .y y]
  | .op8XY1 x y => [.x x, .y y]
  | .op8XY2 x y => [.x x, .y y]
  | .op8XY3 x y => [.x x, .y y]
  | .op8XY4 x y => [.x x, .y y]
  | .op8XY5 x y => [.x x, .y y]
  | .op8XY6 x y => [.x x, .y y]
  | .op8XY7 x y => [.x x, .y y]
  | .op8XYE x y => [.x x, .y y]
  | .op9XY0 x y => [.x x, .y y]
  | .opANNN nnn => [.nnn nnn]
  | .opBNNN nnn => [.nnn nnn]
  | .opCXNN x nn => [.x x, .nn nn]
  | .opDXYN x y n => [.x x, .y y, .n n]
  | .opEX9E x => [.x x]
  | .opEXA1 x => [.x x]
  | .opFX07 x => [.x x]
  | .opFX15 x => [.x x]
  | .opFX18 x => [.x x]
  | .opFX0A x => [.x x]
  | .opFX1E x => [.x x]
  | .opFX29 x => [.x x]
  | .opFX33 x => [.x x]
  | .opFX55 x => [.x x]
  | .opFX65 x => [.x x]

/-- The field is not empty, lies below the family nibble w[15:12], and its value fits its width. -/
def Field.fits (f : Field) : Bool :=
  f.lo ≤ f.hi && f.hi < 12 && f.value < 2 ^ (f.hi - f.lo + 1)

/-- Fields listed from the high bits down do not overlap. -/
def Field.separate : List Field → Bool
  | [] => true
  | [_] => true
  | f :: g :: rest => g.hi < f.lo && Field.separate (g :: rest)

/-- Every field fits and no two overlap. -/
def Field.wellFormed (fs : List Field) : Bool :=
  fs.all Field.fits && Field.separate fs

/-- The instruction's operand fields are well-formed. -/
def Instr.wellFormed (i : Instr) : Bool := Field.wellFormed i.fields

end Sys2Proof
end

