-- ==== Sys2Proof/Decode.lean ====
section
/-! DEFINITION. Decoding (30_encoding.md rules R100-R111), total on any word and any bytes, and the encoder written from the
same formats (R103) and opcode map (R110). -/

namespace Sys2Proof

/-! ## Bits of a word -/

/-- `w[hi:lo]`, the unsigned value of bits hi down to lo (00_scope.md rule R12). -/
def bits (w : Word) (hi lo : Nat) : Nat := w.toNat / 2 ^ lo % 2 ^ (hi - lo + 1)

/-- The top nibble, which selects one of 16 families (R101, R104). -/
def family (w : Word) : Nat := bits w 15 12

/-- X = w[11:8] (R101). -/
def fieldX (w : Word) : Reg := Fin.ofNat 16 (bits w 11 8)

/-- Y = w[7:4] (R101). -/
def fieldY (w : Word) : Reg := Fin.ofNat 16 (bits w 7 4)

/-- N = w[3:0] (R101). -/
def fieldN (w : Word) : Rows := Fin.ofNat 16 (bits w 3 0)

/-- NN = w[7:0] (R101). -/
def fieldNN (w : Word) : Byte := BitVec.ofNat 8 (bits w 7 0)

/-- NNN = w[11:0] (R101). -/
def fieldNNN (w : Word) : Addr := BitVec.ofNat 12 (bits w 11 0)

/-- `(high<<8)|low`: the byte at the lower address is bits 15-8 of the word (20_memory.md rule R73). -/
def wordOfBytes (high low : Byte) : Word := (high.setWidth 16 <<< 8) ||| low.setWidth 16

/-- The byte of bits 15-8, stored at the lower address (R73). -/
def highByte (w : Word) : Byte := BitVec.ofNat 8 (bits w 15 8)

/-- The byte of bits 7-0, stored at the higher address (R73). -/
def lowByte (w : Word) : Byte := BitVec.ofNat 8 (bits w 7 0)

/-! ## Decode -/

/-- The tagged result of decode (R104). -/
inductive Decoded where
  /-- the word is an instruction -/
  | known (i : Instr)
  /-- the word matches no pattern (R111) -/
  | unknown (w : Word)
deriving DecidableEq, Repr

/-- Family 0x0: exactly the words 0x00E0 and 0x00EE (R105). -/
def decodeFamily0 (w : Word) : Decoded :=
  if w = 0x00E0#16 then .known .op00E0
  else if w = 0x00EE#16 then .known .op00EE
  else .unknown w

/-- Families 0x5 and 0x9: only a zero low nibble is an instruction (R109). -/
def decodeLowZero (w : Word) (i : Instr) : Decoded :=
  if bits w 3 0 = 0 then .known i else .unknown w

/-- Family 0x8 dispatches on the low nibble (R106). -/
def decodeFamily8 (w : Word) : Decoded :=
  match bits w 3 0 with
  | 0x0 => .known (.op8XY0 (fieldX w) (fieldY w))
  | 0x1 => .known (.op8XY1 (fieldX w) (fieldY w))
  | 0x2 => .known (.op8XY2 (fieldX w) (fieldY w))
  | 0x3 => .known (.op8XY3 (fieldX w) (fieldY w))
  | 0x4 => .known (.op8XY4 (fieldX w) (fieldY w))
  | 0x5 => .known (.op8XY5 (fieldX w) (fieldY w))
  | 0x6 => .known (.op8XY6 (fieldX w) (fieldY w))
  | 0x7 => .known (.op8XY7 (fieldX w) (fieldY w))
  | 0xE => .known (.op8XYE (fieldX w) (fieldY w))
  | _ => .unknown w

/-- Family 0xE dispatches on the bottom byte (R107). -/
def decodeFamilyE (w : Word) : Decoded :=
  if bits w 7 0 = 0x9E then .known (.opEX9E (fieldX w))
  else if bits w 7 0 = 0xA1 then .known (.opEXA1 (fieldX w))
  else .unknown w

/-- Family 0xF dispatches on the bottom byte (R108). -/
def decodeFamilyF (w : Word) : Decoded :=
  if bits w 7 0 = 0x07 then .known (.opFX07 (fieldX w))
  else if bits w 7 0 = 0x0A then .known (.opFX0A (fieldX w))
  else if bits w 7 0 = 0x15 then .known (.opFX15 (fieldX w))
  else if bits w 7 0 = 0x18 then .known (.opFX18 (fieldX w))
  else if bits w 7 0 = 0x1E then .known (.opFX1E (fieldX w))
  else if bits w 7 0 = 0x29 then .known (.opFX29 (fieldX w))
  else if bits w 7 0 = 0x33 then .known (.opFX33 (fieldX w))
  else if bits w 7 0 = 0x55 then .known (.opFX55 (fieldX w))
  else if bits w 7 0 = 0x65 then .known (.opFX65 (fieldX w))
  else .unknown w

/-- The decode function: classify by the top nibble into one of 16 families, then by the sub-field (R104-R109). A nibble is never
above 0xF, so the last line is never reached. -/
def decodeWord (w : Word) : Decoded :=
  match family w with
  | 0x0 => decodeFamily0 w
  | 0x1 => .known (.op1NNN (fieldNNN w))
  | 0x2 => .known (.op2NNN (fieldNNN w))
  | 0x3 => .known (.op3XNN (fieldX w) (fieldNN w))
  | 0x4 => .known (.op4XNN (fieldX w) (fieldNN w))
  | 0x5 => decodeLowZero w (.op5XY0 (fieldX w) (fieldY w))
  | 0x6 => .known (.op6XNN (fieldX w) (fieldNN w))
  | 0x7 => .known (.op7XNN (fieldX w) (fieldNN w))
  | 0x8 => decodeFamily8 w
  | 0x9 => decodeLowZero w (.op9XY0 (fieldX w) (fieldY w))
  | 0xA => .known (.opANNN (fieldNNN w))
  | 0xB => .known (.opBNNN (fieldNNN w))
  | 0xC => .known (.opCXNN (fieldX w) (fieldNN w))
  | 0xD => .known (.opDXYN (fieldX w) (fieldY w) (fieldN w))
  | 0xE => decodeFamilyE w
  | 0xF => decodeFamilyF w
  | _ => .unknown w

/-- Why bytes do not begin with an instruction. -/
inductive DecodeError where
  /-- fewer than the 2 bytes every instruction has (R100) -/
  | truncated
  /-- the word matches no pattern (R111) -/
  | unknownOpcode (w : Word)
deriving DecidableEq, Repr

/-- Decode the first instruction of a byte sequence and return it with the bytes after it: every instruction is 2 bytes,
high byte first (R73, R100). -/
def decode : List Byte → Except DecodeError (Instr × List Byte)
  | high :: low :: rest =>
    match decodeWord (wordOfBytes high low) with
    | .known i => .ok (i, rest)
    | .unknown w => .error (.unknownOpcode w)
  | _ => .error .truncated

/-- What the decoder reads from the bytes of an instruction numbered as spec/opcode_table.json numbers its bits: the one
16-bit word, bit 0 its least significant bit, laid out high byte first (R73). -/
def decodeTableWord (nbits w : Nat) : Option Instr :=
  let word := BitVec.ofNat 16 (w % 2 ^ nbits)
  match decode [highByte word, lowByte word] with
  | .ok (i, _) => some i
  | .error _ => none

/-! ## Encode -/

/-- Format A: family, NNN (R103). -/
def encodeA (op : Nat) (nnn : Addr) : Word := BitVec.ofNat 16 (op * 4096 + nnn.toNat)

/-- Format XB: family, X, NN (R103). -/
def encodeXB (op : Nat) (x : Reg) (nn : Byte) : Word := BitVec.ofNat 16 (op * 4096 + x.val * 256 + nn.toNat)

/-- Formats XY and XYN: family, X, Y, low nibble (R103). -/
def encodeXY (op : Nat) (x y : Reg) (low : Nat) : Word :=
  BitVec.ofNat 16 (op * 4096 + x.val * 256 + y.val * 16 + low)

/-- Format XS: family, X, sub-opcode byte (R103). -/
def encodeXS (op : Nat) (x : Reg) (sub : Nat) : Word := BitVec.ofNat 16 (op * 4096 + x.val * 256 + sub)

/-- The word of an instruction (R103, R110). -/
def encodeWord : Instr → Word
  | .op00E0 => 0x00E0
  | .op00EE => 0x00EE
  | .op1NNN nnn => encodeA 0x1 nnn
  | .op2NNN nnn => encodeA 0x2 nnn
  | .op3XNN x nn => encodeXB 0x3 x nn
  | .op4XNN x nn => encodeXB 0x4 x nn
  | .op5XY0 x y => encodeXY 0x5 x y 0x0
  | .op6XNN x nn => encodeXB 0x6 x nn
  | .op7XNN x nn => encodeXB 0x7 x nn
  | .op8XY0 x y => encodeXY 0x8 x y 0x0
  | .op8XY1 x y => encodeXY 0x8 x y 0x1
  | .op8XY2 x y => encodeXY 0x8 x y 0x2
  | .op8XY3 x y => encodeXY 0x8 x y 0x3
  | .op8XY4 x y => encodeXY 0x8 x y 0x4
  | .op8XY5 x y => encodeXY 0x8 x y 0x5
  | .op8XY6 x y => encodeXY 0x8 x y 0x6
  | .op8XY7 x y => encodeXY 0x8 x y 0x7
  | .op8XYE x y => encodeXY 0x8 x y 0xE
  | .op9XY0 x y => encodeXY 0x9 x y 0x0
  | .opANNN nnn => encodeA 0xA nnn
  | .opBNNN nnn => encodeA 0xB nnn
  | .opCXNN x nn => encodeXB 0xC x nn
  | .opDXYN x y n => encodeXY 0xD x y n.val
  | .opEX9E x => encodeXS 0xE x 0x9E
  | .opEXA1 x => encodeXS 0xE x 0xA1
  | .opFX07 x => encodeXS 0xF x 0x07
  | .opFX15 x => encodeXS 0xF x 0x15
  | .opFX18 x => encodeXS 0xF x 0x18
  | .opFX0A x => encodeXS 0xF x 0x0A
  | .opFX1E x => encodeXS 0xF x 0x1E
  | .opFX29 x => encodeXS 0xF x 0x29
  | .opFX33 x => encodeXS 0xF x 0x33
  | .opFX55 x => encodeXS 0xF x 0x55
  | .opFX65 x => encodeXS 0xF x 0x65

/-- The bytes of an instruction as memory holds them, high byte first (R73). -/
def encode (i : Instr) : List Byte := [highByte (encodeWord i), lowByte (encodeWord i)]

/-! ## The opcode map -/

/-- A row of the opcode map: a word w is the instruction when `w & mask = match` (R110). -/
structure OpcodeRow where
  pattern : String
  value : Word
  mask : Word
deriving DecidableEq, Repr

/-- The row "w is this instruction when w & mask = value" holds of a word (R110). -/
def OpcodeRow.matchesWord (r : OpcodeRow) (w : Word) : Bool := w &&& r.mask == r.value

/-- The row of the opcode map each instruction stands in (R110). -/
def Instr.row : Instr → OpcodeRow
  | .op00E0 => ⟨"00E0", 0x00E0, 0xFFFF⟩
  | .op00EE => ⟨"00EE", 0x00EE, 0xFFFF⟩
  | .op1NNN _ => ⟨"1NNN", 0x1000, 0xF000⟩
  | .op2NNN _ => ⟨"2NNN", 0x2000, 0xF000⟩
  | .op3XNN _ _ => ⟨"3XNN", 0x3000, 0xF000⟩
  | .op4XNN _ _ => ⟨"4XNN", 0x4000, 0xF000⟩
  | .op5XY0 _ _ => ⟨"5XY0", 0x5000, 0xF00F⟩
  | .op6XNN _ _ => ⟨"6XNN", 0x6000, 0xF000⟩
  | .op7XNN _ _ => ⟨"7XNN", 0x7000, 0xF000⟩
  | .op8XY0 _ _ => ⟨"8XY0", 0x8000, 0xF00F⟩
  | .op8XY1 _ _ => ⟨"8XY1", 0x8001, 0xF00F⟩
  | .op8XY2 _ _ => ⟨"8XY2", 0x8002, 0xF00F⟩
  | .op8XY3 _ _ => ⟨"8XY3", 0x8003, 0xF00F⟩
  | .op8XY4 _ _ => ⟨"8XY4", 0x8004, 0xF00F⟩
  | .op8XY5 _ _ => ⟨"8XY5", 0x8005, 0xF00F⟩
  | .op8XY6 _ _ => ⟨"8XY6", 0x8006, 0xF00F⟩
  | .op8XY7 _ _ => ⟨"8XY7", 0x8007, 0xF00F⟩
  | .op8XYE _ _ => ⟨"8XYE", 0x800E, 0xF00F⟩
  | .op9XY0 _ _ => ⟨"9XY0", 0x9000, 0xF00F⟩
  | .opANNN _ => ⟨"ANNN", 0xA000, 0xF000⟩
  | .opBNNN _ => ⟨"BNNN", 0xB000, 0xF000⟩
  | .opCXNN _ _ => ⟨"CXNN", 0xC000, 0xF000⟩
  | .opDXYN _ _ _ => ⟨"DXYN", 0xD000, 0xF000⟩
  | .opEX9E _ => ⟨"EX9E", 0xE09E, 0xF0FF⟩
  | .opEXA1 _ => ⟨"EXA1", 0xE0A1, 0xF0FF⟩
  | .opFX07 _ => ⟨"FX07", 0xF007, 0xF0FF⟩
  | .opFX15 _ => ⟨"FX15", 0xF015, 0xF0FF⟩
  | .opFX18 _ => ⟨"FX18", 0xF018, 0xF0FF⟩
  | .opFX0A _ => ⟨"FX0A", 0xF00A, 0xF0FF⟩
  | .opFX1E _ => ⟨"FX1E", 0xF01E, 0xF0FF⟩
  | .opFX29 _ => ⟨"FX29", 0xF029, 0xF0FF⟩
  | .opFX33 _ => ⟨"FX33", 0xF033, 0xF0FF⟩
  | .opFX55 _ => ⟨"FX55", 0xF055, 0xF0FF⟩
  | .opFX65 _ => ⟨"FX65", 0xF065, 0xF0FF⟩

/-- The opcode map, one row per pattern, in the table's order (R110). -/
def opcodeTable : List OpcodeRow :=
  [⟨"00E0", 0x00E0, 0xFFFF⟩, ⟨"00EE", 0x00EE, 0xFFFF⟩, ⟨"1NNN", 0x1000, 0xF000⟩, ⟨"2NNN", 0x2000, 0xF000⟩,
    ⟨"3XNN", 0x3000, 0xF000⟩, ⟨"4XNN", 0x4000, 0xF000⟩, ⟨"5XY0", 0x5000, 0xF00F⟩, ⟨"6XNN", 0x6000, 0xF000⟩,
    ⟨"7XNN", 0x7000, 0xF000⟩]
  ++ [⟨"8XY0", 0x8000, 0xF00F⟩, ⟨"8XY1", 0x8001, 0xF00F⟩, ⟨"8XY2", 0x8002, 0xF00F⟩, ⟨"8XY3", 0x8003, 0xF00F⟩,
    ⟨"8XY4", 0x8004, 0xF00F⟩, ⟨"8XY5", 0x8005, 0xF00F⟩, ⟨"8XY6", 0x8006, 0xF00F⟩, ⟨"8XY7", 0x8007, 0xF00F⟩,
    ⟨"8XYE", 0x800E, 0xF00F⟩]
  ++ [⟨"9XY0", 0x9000, 0xF00F⟩, ⟨"ANNN", 0xA000, 0xF000⟩, ⟨"BNNN", 0xB000, 0xF000⟩, ⟨"CXNN", 0xC000, 0xF000⟩,
    ⟨"DXYN", 0xD000, 0xF000⟩, ⟨"EX9E", 0xE09E, 0xF0FF⟩, ⟨"EXA1", 0xE0A1, 0xF0FF⟩]
  ++ [⟨"FX07", 0xF007, 0xF0FF⟩, ⟨"FX15", 0xF015, 0xF0FF⟩, ⟨"FX18", 0xF018, 0xF0FF⟩, ⟨"FX0A", 0xF00A, 0xF0FF⟩,
    ⟨"FX1E", 0xF01E, 0xF0FF⟩, ⟨"FX29", 0xF029, 0xF0FF⟩, ⟨"FX33", 0xF033, 0xF0FF⟩, ⟨"FX55", 0xF055, 0xF0FF⟩,
    ⟨"FX65", 0xF065, 0xF0FF⟩]

end Sys2Proof
end

