-- ==== Sys2Proof/Config.lean ====
section
/-! DEFINITION. What is fixed for the machine (00_scope.md rule R9) and the values the spec leaves open (R10): the free values
are opaque constants with no body. -/

namespace Sys2Proof.Config

/-- MEM_SIZE: addresses 0x000-0xFFF (R9, R70). -/
abbrev memSize : Nat := 4096

/-- GLYPH_SIZE: the glyph table occupies 0x000-0x04F (R9, R36). -/
abbrev glyphSize : Nat := 80

/-- PROGRAM_BASE (R9, R446). -/
abbrev programBase : Nat := 0x200

/-- PROGRAM_MAX: the longest program image (R9, R446). -/
abbrev programMax : Nat := 3584

/-- RANDOM (R10, R232): the byte that the n-th free draw of a run gives, under no law. -/
opaque randomByte : Nat → Byte

/-- KEY_CHOICE (R10, R334): the number that the n-th free draw of a run gives, under no law; `FX0A` takes it modulo the number
of pressed keys, so that any pressed key may be the one reported. -/
opaque keyChoice : Nat → Nat

end Sys2Proof.Config
end

