-- ==== Sys2Proof/Machine/Glyphs.lean ====
section
/-! DEFINITION. The default value of the parameter GLYPH_TABLE (10_state.md rule R36). -/

namespace Sys2Proof.Machine

/-- The 80 bytes at 0x000-0x04F: glyph d is the 5 bytes at 5*d .. 5*d+4, top row first (R36). -/
abbrev GlyphTable := Vector Byte Config.glyphSize

/-- The default of GLYPH_TABLE (R36). PRESUMED: the spec takes these bytes from general knowledge and leaves the table a
parameter (assumption 1). -/
def defaultGlyphs : GlyphTable :=
  #v[0xF0, 0x90, 0x90, 0x90, 0xF0, 0x20, 0x60, 0x20, 0x20, 0x70,
     0xF0, 0x10, 0xF0, 0x80, 0xF0, 0xF0, 0x10, 0xF0, 0x10, 0xF0,
     0x90, 0x90, 0xF0, 0x10, 0x10, 0xF0, 0x80, 0xF0, 0x10, 0xF0,
     0xF0, 0x80, 0xF0, 0x90, 0xF0, 0xF0, 0x10, 0x20, 0x40, 0x40,
     0xF0, 0x90, 0xF0, 0x90, 0xF0, 0xF0, 0x90, 0xF0, 0x10, 0xF0,
     0xF0, 0x90, 0xF0, 0x90, 0x90, 0xE0, 0x90, 0xE0, 0x90, 0xE0,
     0xF0, 0x80, 0x80, 0x80, 0xF0, 0xE0, 0x90, 0x90, 0x90, 0xE0,
     0xF0, 0x80, 0xF0, 0x80, 0xF0, 0xF0, 0x80, 0xF0, 0x80, 0x80]

end Sys2Proof.Machine
end

