-- ==== Sys2Proof/Machine/State.lean ====
section
/-! DEFINITION. The state of the interpreter core (10_state.md rules R30-R51), plain data. -/

namespace Sys2Proof.Machine

/-- Why a Step is fatal (60_exceptions.md rule R401). -/
inductive FatalReason where
  /-- `2NNN` with sp = 16 (R402) -/
  | stackOverflow
  /-- `00EE` with sp = 0 (R404) -/
  | stackUnderflow
  /-- the fetch, `DXYN`, `FX33`, `FX55` or `FX65` past 0xFFF (R403) -/
  | addressOutOfRange
  /-- `EX9E` or `EXA1` with V[X] > 15 (R405) -/
  | keyIndexOutOfRange
deriving DecidableEq, Repr

/-- The fault record `f = (reason, pc, word)` (R401). -/
structure FatalRecord where
  reason : FatalReason
  /-- pc at the start of the faulting Step -/
  pc : Word
  /-- the fetched word, none when the fetch itself faulted -/
  word : Option Word
deriving DecidableEq, Repr

/-- The interpreter's run state (R44). -/
inductive Mode where
  | running
  /-- an `FX0A` at pc has found no key pressed (R150, R334) -/
  | awaitingKey (x : Reg)
  /-- a fatal error ended the run (R149, R401) -/
  | halted (f : FatalRecord)
deriving DecidableEq, Repr

/-- The status a Step returns (40_cycle.md rule R155). -/
inductive Status where
  | ok
  | waiting
  | unknownOpcode (w : Word)
  | fatal (f : FatalRecord)
  | halted (f : FatalRecord)
deriving DecidableEq, Repr

/-- What a Step returns to the host: its status and its beep bit (R45, R46, R155). -/
structure StepOutput where
  status : Status
  beep : Bool
deriving DecidableEq, Repr

/-- The bytes of memory that differ from what an unlisted address reads as, addresses rising (`Memory.wf`). -/
abbrev Memory := List Host.Cell

/-- The framebuffer: 32 rows of 64 one-bit cells. The spec's cell k = x + 64*y (R41) is bit x of row y. -/
abbrev Frame := Vector (BitVec 64) 32

/-- The state aggregate (R30), the parameter GLYPH_TABLE (R10, R36), and two fields of the model's own, `draws` and `out`. -/
structure State where
  /-- memory, 0x000-0xFFF (R31, R70) -/
  mem : Memory
  /-- GLYPH_TABLE, the parameter Reset loads at 0x000-0x04F (R36, R441); no Step changes it (assumption 1) -/
  glyphs : GlyphTable
  /-- V0-VF (R32, R33) -/
  V : Vector Byte 16
  /-- the index register (R34) -/
  I : Word
  /-- the program counter (R35) -/
  pc : Word
  /-- the call stack's slots (R37) -/
  stack : Vector Word 16
  /-- the stack pointer, 0-16 (R38) -/
  sp : Fin 17
  /-- the delay timer (R39) -/
  DT : Byte
  /-- the sound timer (R40) -/
  ST : Byte
  /-- the framebuffer (R41) -/
  gfx : Frame
  /-- the key inputs, true when pressed (R43) -/
  keys : Vector Bool 16
  /-- the redraw signal (R42) -/
  drawFlag : Bool
  /-- the run state (R44) -/
  mode : Mode
  /-- the MODEL's own: how many free values the run has drawn (assumption 2) -/
  draws : Nat
  /-- the MODEL's own: what the last Step returned, none before the first (R45, R46; assumption 4) -/
  out : Option StepOutput
deriving DecidableEq, Repr

/-- Why the machine would stop outside the spec's own errors. It has no value: every fatal error of the spec is a next state
in mode `halted` (R149, R401), and the spec leaves nothing else on which a Step stops. Safe: no step can end in a fault. -/
inductive Fault
deriving DecidableEq, Repr

/-- Why an instruction has no meaning. -/
inductive Refusal where
  /-- raised by `exec` alone, for an instruction that has no meaning yet, by its mnemonic; every instruction has one, so no
  arm raises it. Safe. -/
  | notModelled (mnemonic : String)
deriving DecidableEq, Repr

/-- The outcome of a step of this machine. -/
abbrev Result := Host.Outcome State Fault Refusal

/-- The machine after Construct and Reset (R51, R440, R441), with all keys released (R440) and the default GLYPH_TABLE
(R36). The model's own fields: `draws` = 0 (DESIGN CHOICE, assumption 2) and `out` = none (DESIGN CHOICE, assumption 4). -/
def State.reset : State where
  mem := []
  glyphs := defaultGlyphs
  V := Vector.replicate 16 0
  I := 0
  pc := 0x200
  stack := Vector.replicate 16 0
  sp := 0
  DT := 0
  ST := 0
  gfx := Vector.replicate 32 0
  keys := Vector.replicate 16 false
  drawFlag := false
  mode := .running
  draws := 0
  out := none

end Sys2Proof.Machine
end

