-- ==== Sys2Proof/Machine/Ops.lean ====
section
/-! DEFINITION. The named operations over memory, registers, stack, framebuffer, pc and mode; taking a fatal error and the way
out of it. -/

namespace Sys2Proof.Machine

/-! ## Memory (20_memory.md) -/

/-- What an address that memory does not list reads as: the reset contents (R71, R441). -/
def Memory.unlisted (g : GlyphTable) (a : Nat) : Byte :=
  if h : a < Config.glyphSize then g[a] else 0

/-- The entry for an address, if it has one. -/
def Memory.find (m : Memory) (a : Nat) : Option Byte :=
  match m with
  | [] => none
  | c :: rest => if c.1 = a then some c.2 else Memory.find rest a

/-- `MemRead(a, 1)` (R72). -/
def Memory.read (g : GlyphTable) (m : Memory) (a : Nat) : Byte :=
  (Memory.find m a).getD (Memory.unlisted g a)

/-- Set the entry for an address, keeping addresses rising. -/
def Memory.insert (m : Memory) (a : Nat) (b : Byte) : Memory :=
  match m with
  | [] => [(a, b)]
  | c :: rest =>
    if a < c.1 then (a, b) :: c :: rest
    else if a = c.1 then (a, b) :: rest
    else c :: Memory.insert rest a b

/-- Remove the entry for an address. -/
def Memory.erase (m : Memory) (a : Nat) : Memory := m.filter fun c => c.1 != a

/-- `MemWrite(a, 1, v)` (R72). -/
def Memory.write (g : GlyphTable) (m : Memory) (a : Nat) (b : Byte) : Memory :=
  if b = Memory.unlisted g a then Memory.erase m a else Memory.insert m a b

/-- Addresses strictly rising. -/
def Memory.rising : Memory → Bool
  | [] => true
  | [_] => true
  | c :: d :: rest => c.1 < d.1 && Memory.rising (d :: rest)

/-- The canonical form: addresses strictly rising and inside the address space (R70), no entry equal to what an unlisted
address reads as. -/
def Memory.wf (g : GlyphTable) (m : Memory) : Bool :=
  Memory.rising m && m.all fun c => c.1 < Config.memSize && c.2 != Memory.unlisted g c.1

/-- Read one byte (R72). -/
def State.memRead (s : State) (a : Nat) : Byte := Memory.read s.glyphs s.mem a

/-- Write one byte (R72). -/
def State.memWrite (s : State) (a : Nat) (b : Byte) : State :=
  { s with mem := Memory.write s.glyphs s.mem a b }

/-- Write bytes at rising addresses from `a`, in that order (R77). -/
def State.memWriteList (s : State) (a : Nat) : List Byte → State
  | [] => s
  | b :: rest => (s.memWrite a b).memWriteList (a + 1) rest

/-- The n bytes at a, a+1, … (R72). -/
def State.memReadList (s : State) (a n : Nat) : List Byte := (List.range n).map fun k => s.memRead (a + k)

/-! ## Registers and stack (10_state.md) -/

/-- Read V[r] (R32). -/
def State.readV (s : State) (r : Reg) : Byte := s.V[r]

/-- Write V[r] (R32). -/
def State.writeV (s : State) (r : Reg) (b : Byte) : State := { s with V := s.V.set r b }

/-- VF, the flag register V[15] (R33). -/
def regF : Reg := 15

/-- Write VF (R33). -/
def State.writeF (s : State) (b : Byte) : State := s.writeV regF b

/-- Write I (R34). -/
def State.writeI (s : State) (a : Word) : State := { s with I := a }

/-- Push pc: the slot at sp takes it and sp counts one more entry in use (R182). -/
def State.pushPc (s : State) (h : s.sp.val < 16) : State :=
  { s with stack := s.stack.set s.sp.val s.pc h, sp := ⟨s.sp.val + 1, by omega⟩ }

/-- The most recent slot in use, `stack[sp-1]` (R38). -/
def State.topOfStack (s : State) (h : 0 < s.sp.val) : Word := s.stack[s.sp.val - 1]'(by omega)

/-- Pop: sp counts one entry less; the slot keeps its value (R37, R180). -/
def State.dropTop (s : State) : State := { s with sp := ⟨s.sp.val - 1, by omega⟩ }

/-! ## Framebuffer (R41) -/

/-- The cell at index k = x + 64*y (R41). -/
def Frame.cell (g : Frame) (k : Fin 2048) : Bool := g[k.val / 64].getLsbD (k.val % 64)

/-- `gfx[k] <- gfx[k] ^ 1` (R301). -/
def Frame.flip (g : Frame) (k : Fin 2048) : Frame :=
  g.set (k.val / 64) (g[k.val / 64] ^^^ (1#64 <<< (k.val % 64)))

/-- Every cell 0 (R300). -/
def Frame.clear : Frame := Vector.replicate 32 0

/-! ## Ending an instruction (40_cycle.md) -/

/-- The instruction is done and pc takes the given value as its last effect (R146); a completed instruction leaves mode
Running (R140, R156). -/
def State.doneAt (s : State) (target : Word) : State := { s with pc := target, mode := .running }

/-- Done, pc + 2 (R146). -/
def State.done (s : State) : State := s.doneAt (s.pc + 2)

/-- Done, pc + 4 when the condition holds and pc + 2 otherwise (R183-R186, R330, R331). -/
def State.doneSkipIf (s : State) (skip : Bool) : State := s.doneAt (if skip then s.pc + 4 else s.pc + 2)

/-- `wait`: pc and every register stay, and mode is AwaitingKey(X) (R150). -/
def State.wait (s : State) (x : Reg) : State := { s with mode := .awaitingKey x }

/-- `raise Fatal(reason)`: mode becomes Halted with the record (reason, pc, word) and everything else stays (R149, R401,
R409). -/
def State.raiseFatal (s : State) (reason : FatalReason) (word : Option Word) : State :=
  { s with mode := .halted ⟨reason, s.pc, word⟩ }

/-- The Reset transaction, the only way out of Halted (R411, R441, R442): keys stay (R443), the glyph table is reloaded from
the machine's GLYPH_TABLE, and the model's own `draws` and `out` are not touched. -/
def State.afterReset (s : State) : State :=
  { State.reset with glyphs := s.glyphs, keys := s.keys, draws := s.draws, out := s.out }

/-! ## Free values (00_scope.md rule R10) -/

/-- Count one free value as drawn (assumption 2). -/
def State.countDraw (s : State) : State := { s with draws := s.draws + 1 }

/-- The byte the next draw of RANDOM gives (R10, R232). -/
def State.nextRandom (s : State) : Byte := Config.randomByte s.draws

/-- The number the next draw of KEY_CHOICE gives (R10, R334). -/
def State.nextChoice (s : State) : Nat := Config.keyChoice s.draws

end Sys2Proof.Machine
end

