-- ==== Sys2Proof/Machine/Flags.lean ====
section
/-! DEFINITION. The flag values of VF (10_state.md rule R33, 42_alu.md rules R226-R233): a flag is the byte 0x01 or 0x00. -/

namespace Sys2Proof.Machine

/-- A flag as the byte written to VF. -/
def flagByte (b : Bool) : Byte := if b then 0x01 else 0x00

/-- The carry out of bit 7: the exact sum exceeds 255 (R227). -/
def carryFlag (a b : Byte) : Byte := flagByte (a.toNat + b.toNat > 255)

/-- "No borrow" by the strict test: the minuend is greater than the subtrahend (R228, R229). -/
def greaterFlag (a b : Byte) : Byte := flagByte (a.toNat > b.toNat)

/-- The bit that a right shift by one shifts out (R230). -/
def lowBitFlag (a : Byte) : Byte := a &&& 1

/-- The bit that a left shift by one shifts out (R231). -/
def highBitFlag (a : Byte) : Byte := (a >>> 7) &&& 1

end Sys2Proof.Machine
end

