-- ==== Sys2Proof/Machine/Operands.lean ====
section
/-! DEFINITION. Operand forms: immediates (30_encoding.md rule R102), I-relative addresses and their range check
(20_memory.md rules R75, R76), the decimal digits of a byte, sprite placement and the pressed keys. -/

namespace Sys2Proof.Machine

/-- `zext_16(NNN)` (R102). -/
def zextAddr (a : Addr) : Word := a.setWidth 16

/-- `zext_16(V[X])` (R13). -/
def zextByte (b : Byte) : Word := b.setWidth 16

/-- The address `I + k` as an exact sum (R75). -/
def State.dataAddr (s : State) (k : Nat) : Nat := s.I.toNat + k

/-- The n bytes at I, I+1, … all lie at or below 0xFFF; no byte needs nothing (R75, R301). -/
def State.dataInRange (s : State) (n : Nat) : Bool := n == 0 || s.I.toNat + n - 1 ≤ 0xFFF

/-- The decimal digits of a byte: hundreds, tens, ones (R263). -/
def decimalDigits (v : Byte) : List Byte :=
  [BitVec.ofNat 8 (v.toNat / 100), BitVec.ofNat 8 (v.toNat / 10 % 10), BitVec.ofNat 8 (v.toNat % 10)]

/-- The registers V0..VX, in ascending order (R264). -/
def State.registersTo (s : State) (x : Reg) : List Byte := s.V.toList.take (x.val + 1)

/-- The cell a sprite pixel at column `col`, row `row` lands on: both coordinates wrap (R303). -/
def pixelIndex (x0 y0 : Byte) (row col : Nat) : Fin 2048 :=
  ⟨(x0.toNat + col) % 64 + (y0.toNat + row) % 32 * 64, by omega⟩

/-- The sprite bit at column `col`: bit 7 is the leftmost pixel (R302). -/
def spriteBit (b : Byte) (col : Nat) : Bool := b.getLsbD (7 - col)

/-- The pressed keys, in ascending order (R334). -/
def State.pressedKeys (s : State) : List (Fin 16) := (List.finRange 16).filter fun k => s.keys[k]

end Sys2Proof.Machine
end

