-- ==== Sys2Proof/Machine/Alu.lean ====
section
/-! DEFINITION. The ALU (42_alu.md rules R220-R233). -/

namespace Sys2Proof.Machine

/-- V[X] takes a value computed from V[X] and V[Y]; no flag is written (R222-R225). -/
def State.binary (s : State) (x y : Reg) (result : Byte → Byte → Byte) : State :=
  s.writeV x (result (s.readV x) (s.readV y))

/-- The flag-writing form (R226): the flag is computed from V[X] and V[Y] as they stand and written to VF, then the result is
computed from the registers as that write left them and written to V[X]. -/
def State.flagThenResult (s : State) (x y : Reg) (flag result : Byte → Byte → Byte) : State :=
  (s.writeF (flag (s.readV x) (s.readV y))).binary x y result

/-- `6XNN` (R220). -/
def exec6XNN (x : Reg) (nn : Byte) (s : State) : Result := .next (s.writeV x nn).done

/-- `7XNN` (R221): the sum modulo 256, no flag. -/
def exec7XNN (x : Reg) (nn : Byte) (s : State) : Result := .next (s.writeV x (s.readV x + nn)).done

/-- `8XY0` (R222). -/
def exec8XY0 (x y : Reg) (s : State) : Result := .next (s.binary x y fun _ b => b).done

/-- `8XY1` (R223). -/
def exec8XY1 (x y : Reg) (s : State) : Result := .next (s.binary x y fun a b => a ||| b).done

/-- `8XY2` (R224). -/
def exec8XY2 (x y : Reg) (s : State) : Result := .next (s.binary x y fun a b => a &&& b).done

/-- `8XY3` (R225). -/
def exec8XY3 (x y : Reg) (s : State) : Result := .next (s.binary x y fun a b => a ^^^ b).done

/-- `8XY4` (R227). -/
def exec8XY4 (x y : Reg) (s : State) : Result := .next (s.flagThenResult x y carryFlag fun a b => a + b).done

/-- `8XY5` (R228). -/
def exec8XY5 (x y : Reg) (s : State) : Result := .next (s.flagThenResult x y greaterFlag fun a b => a - b).done

/-- `8XY6` (R230): Y is not read. -/
def exec8XY6 (x _y : Reg) (s : State) : Result :=
  .next (s.flagThenResult x x (fun a _ => lowBitFlag a) fun a _ => a >>> 1).done

/-- `8XY7` (R229): the operands of `8XY5` exchanged. -/
def exec8XY7 (x y : Reg) (s : State) : Result :=
  .next (s.flagThenResult x y (fun a b => greaterFlag b a) fun a b => b - a).done

/-- `8XYE` (R231): Y is not read. -/
def exec8XYE (x _y : Reg) (s : State) : Result :=
  .next (s.flagThenResult x x (fun a _ => highBitFlag a) fun a _ => a <<< 1).done

/-- `CXNN` (R232): the byte drawn is a free value. -/
def execCXNN (x : Reg) (nn : Byte) (s : State) : Result :=
  .next (s.countDraw.writeV x (s.nextRandom &&& nn)).done

end Sys2Proof.Machine
end

