-- ==== Sys2Proof/Machine/Display.lean ====
section
/-! DEFINITION. The display instructions (44_display.md rules R300-R307). -/

namespace Sys2Proof.Machine

/-- `00E0` (R300). -/
def exec00E0 (s : State) : Result := .next { s with gfx := Frame.clear, drawFlag := true }.done

/-- A framebuffer being drawn on, and whether a cell has gone from 1 to 0. -/
abbrev Canvas := Frame × Bool

/-- One sprite pixel: a 1 bit flips its cell and collides when the cell held 1 (R301, R304). -/
def drawPixel (x0 y0 : Byte) (b : Byte) (row : Nat) (c : Canvas) (col : Nat) : Canvas :=
  if spriteBit b col then
    (c.1.flip (pixelIndex x0 y0 row col), c.2 || c.1.cell (pixelIndex x0 y0 row col))
  else c

/-- One sprite byte: its eight pixels from the left (R301, R302). -/
def drawRow (x0 y0 : Byte) (b : Byte) (row : Nat) (c : Canvas) : Canvas :=
  (List.range 8).foldl (drawPixel x0 y0 b row) c

/-- The sprite bytes from row `row` on, top row first (R301). -/
def drawRows (x0 y0 : Byte) (row : Nat) (c : Canvas) : List Byte → Canvas
  | [] => c
  | b :: rest => drawRows x0 y0 (row + 1) (drawRow x0 y0 b row c) rest

/-- `DXYN` (R301): the coordinates are read before VF is written. -/
def execDXYN (x y : Reg) (n : Rows) (s : State) : Result :=
  if s.dataInRange n.val then
    let c := drawRows (s.readV x) (s.readV y) 0 (s.gfx, false) (s.memReadList (s.dataAddr 0) n.val)
    .next ({ s with gfx := c.1, drawFlag := true }.writeF (flagByte c.2)).done
  else .next (s.raiseFatal .addressOutOfRange (some (encodeWord (.opDXYN x y n))))

end Sys2Proof.Machine
end

