-- ==== Sys2Proof/Machine/Flow.lean ====
section
/-! DEFINITION. Control flow: return, jump, call, skips, computed jump (41_flow.md rules R180-R190). -/

namespace Sys2Proof.Machine

/-- `00EE` (R180): pop the address of the call and go to the instruction after it. -/
def exec00EE (s : State) : Result :=
  if h : 0 < s.sp.val then .next (s.dropTop.doneAt (s.topOfStack h + 2))
  else .next (s.raiseFatal .stackUnderflow (some (encodeWord .op00EE)))

/-- `1NNN` (R181). -/
def exec1NNN (nnn : Addr) (s : State) : Result := .next (s.doneAt (zextAddr nnn))

/-- `2NNN` (R182): push the address of the call itself. -/
def exec2NNN (nnn : Addr) (s : State) : Result :=
  if h : s.sp.val < 16 then .next ((s.pushPc h).doneAt (zextAddr nnn))
  else .next (s.raiseFatal .stackOverflow (some (encodeWord (.op2NNN nnn))))

/-- `3XNN` (R183). -/
def exec3XNN (x : Reg) (nn : Byte) (s : State) : Result := .next (s.doneSkipIf (s.readV x == nn))

/-- `4XNN` (R184). -/
def exec4XNN (x : Reg) (nn : Byte) (s : State) : Result := .next (s.doneSkipIf (s.readV x != nn))

/-- `5XY0` (R185). -/
def exec5XY0 (x y : Reg) (s : State) : Result := .next (s.doneSkipIf (s.readV x == s.readV y))

/-- `9XY0` (R186). -/
def exec9XY0 (x y : Reg) (s : State) : Result := .next (s.doneSkipIf (s.readV x != s.readV y))

/-- `BNNN` (R187): always V0, whatever bits 11-8 hold; the sum is not reduced modulo 0x1000. -/
def execBNNN (nnn : Addr) (s : State) : Result := .next (s.doneAt (zextByte (s.readV 0) + zextAddr nnn))

end Sys2Proof.Machine
end

