-- ==== Sys2Proof/Machine/IndexMemory.lean ====
section
/-! DEFINITION. The index register and memory transfers (43_index_memory.md rules R260-R265). -/

namespace Sys2Proof.Machine

/-- `ANNN` (R260). -/
def execANNN (nnn : Addr) (s : State) : Result := .next (s.writeI (zextAddr nnn)).done

/-- `FX1E` (R261): the sum wraps at the end of the address range. -/
def execFX1E (x : Reg) (s : State) : Result :=
  .next (s.writeI (BitVec.ofNat 16 ((s.I.toNat + (s.readV x).toNat) % 0x1000))).done

/-- `FX29` (R262): five bytes a glyph; V[X] is not masked to a digit. -/
def execFX29 (x : Reg) (s : State) : Result := .next (s.writeI (zextByte (s.readV x) * 5)).done

/-- `FX33` (R263): hundreds, tens, ones at I, I+1, I+2. -/
def execFX33 (x : Reg) (s : State) : Result :=
  if s.dataInRange 3 then .next (s.memWriteList (s.dataAddr 0) (decimalDigits (s.readV x))).done
  else .next (s.raiseFatal .addressOutOfRange (some (encodeWord (.opFX33 x))))

/-- `FX55` (R264): V0..VX to I, I+1, …; I does not change. -/
def execFX55 (x : Reg) (s : State) : Result :=
  if s.dataInRange (x.val + 1) then .next (s.memWriteList (s.dataAddr 0) (s.registersTo x)).done
  else .next (s.raiseFatal .addressOutOfRange (some (encodeWord (.opFX55 x))))

/-- `V[i] <- MemRead(I + i, 1)` for i = 0 .. n-1, ascending (R265). -/
def State.loadRegisters (s : State) : Nat → State
  | 0 => s
  | n + 1 => (s.loadRegisters n).writeV (Fin.ofNat 16 n) (s.memRead (s.dataAddr n))

/-- `FX65` (R265): V0..VX from I, I+1, …; I does not change. -/
def execFX65 (x : Reg) (s : State) : Result :=
  if s.dataInRange (x.val + 1) then .next (s.loadRegisters (x.val + 1)).done
  else .next (s.raiseFatal .addressOutOfRange (some (encodeWord (.opFX65 x))))

end Sys2Proof.Machine
end

