-- ==== Sys2Proof/Machine/KeysTimers.lean ====
section
/-! DEFINITION. Key and timer instructions (45_keys_timers.md rules R330-R338). -/

namespace Sys2Proof.Machine

/-- `keys[V[X]]`, none when V[X] > 15 (R330, R333). -/
def State.keyOf (s : State) (x : Reg) : Option Bool :=
  if h : (s.readV x).toNat < 16 then some s.keys[(s.readV x).toNat] else none

/-- `EX9E` (R330). -/
def execEX9E (x : Reg) (s : State) : Result :=
  match s.keyOf x with
  | some pressed => .next (s.doneSkipIf pressed)
  | none => .next (s.raiseFatal .keyIndexOutOfRange (some (encodeWord (.opEX9E x))))

/-- `EXA1` (R331). -/
def execEXA1 (x : Reg) (s : State) : Result :=
  match s.keyOf x with
  | some pressed => .next (s.doneSkipIf (!pressed))
  | none => .next (s.raiseFatal .keyIndexOutOfRange (some (encodeWord (.opEXA1 x))))

/-- `FX07` (R332). -/
def execFX07 (x : Reg) (s : State) : Result := .next (s.writeV x s.DT).done

/-- `FX15` (R335). -/
def execFX15 (x : Reg) (s : State) : Result := .next { s with DT := s.readV x }.done

/-- `FX18` (R336). -/
def execFX18 (x : Reg) (s : State) : Result := .next { s with ST := s.readV x }.done

/-- The key `FX0A` reports when `k` and those of `rest` are pressed: the only one, or the one the number `n` drawn for
KEY_CHOICE picks; every pressed key is picked by some `n` (R10, R334). -/
def chooseKey (n : Nat) (k : Fin 16) (rest : List (Fin 16)) : Fin 16 :=
  match rest with
  | [] => k
  | _ :: _ => (k :: rest)[n % (rest.length + 1)]'(Nat.mod_lt _ (Nat.succ_pos _))

/-- `FX0A` (R334): done when a key is pressed in this Step's snapshot, otherwise waiting. -/
def execFX0A (x : Reg) (s : State) : Result :=
  match s.pressedKeys with
  | [] => .next (s.wait x)
  | k :: rest => .next (s.countDraw.writeV x (BitVec.ofNat 8 (chooseKey s.nextChoice k rest).val)).done

end Sys2Proof.Machine
end

