-- ==== Sys2Proof/Machine/Cycle.lean ====
section
/-! DEFINITION. The instruction cycle (40_cycle.md rules R140-R157): fetch, decode, execute, timers, and what the Step
returns. -/

namespace Sys2Proof.Machine

/-- The word at pc, pc+1, none when pc + 1 > 0xFFF; the check is on the 16-bit pc before either byte is read (R141). -/
def State.fetch (s : State) : Option Word :=
  if s.pc.toNat + 1 > 0xFFF then none
  else some (wordOfBytes (s.memRead s.pc.toNat) (s.memRead (s.pc.toNat + 1)))

/-- A timer counts down by 1 and stays at 0 (R39, R40). -/
def countDown (b : Byte) : Byte := if b = 0 then 0 else b - 1

/-- Phase 4 (R152, R153): both timers count down; the Step returns the status and beeps when ST goes from 1 to 0. -/
def State.timerStep (s : State) (status : Status) : State :=
  { s with DT := countDown s.DT, ST := countDown s.ST, out := some ⟨status, s.ST == 1⟩ }

/-- The Step returns a status with beep false and takes no timer step (R143, R149). -/
def State.noTimerStep (s : State) (status : Status) : State := { s with out := some ⟨status, false⟩ }

/-- End a Step after its execute phase, by the mode that phase left: Done, Wait or Fatal (R145, R149, R150, R155). -/
def State.finish (s : State) : State :=
  match s.mode with
  | .running => s.timerStep .ok
  | .awaitingKey _ => s.timerStep .waiting
  | .halted f => s.noTimerStep (.fatal f)

/-- Apply a state function to a next state. -/
def Result.map (f : State → State) : Result → Result
  | .next s => .next (f s)
  | .fault r => .fault r
  | .refused r => .refused r

/-- An unknown word is reported and passed over; the timers run (R151, R410). -/
def State.reportUnknown (s : State) (w : Word) : State := s.done.timerStep (.unknownOpcode w)

/-- Decode a fetched word and execute it (R140 phases 2-4). -/
def runWord (s : State) (w : Word) : Result :=
  match decodeWord w with
  | .known i => Result.map State.finish (exec i s)
  | .unknown u => .next (s.reportUnknown u)

/-- One Step from a mode other than Halted (R140). -/
def runStep (s : State) : Result :=
  match s.fetch with
  | some w => runWord s w
  | none => .next (s.raiseFatal .addressOutOfRange none).finish

/-- One Step (R140); in Halted it changes nothing (R143). -/
def cycle (s : State) : Result :=
  match s.mode with
  | .halted f => .next (s.noTimerStep (.halted f))
  | .running => runStep s
  | .awaitingKey _ => runStep s

end Sys2Proof.Machine
end

