-- ==== Sys2Proof/Machine/Step.lean ====
section
/-! DEFINITION. One step of the machine is one Step of the spec (40_cycle.md rule R140). -/

namespace Sys2Proof.Machine

def step : State → Host.Outcome State Fault Refusal := cycle

/-- The state with one instruction word stored where the next Step fetches it, high byte first (R73). A fetch needs a mode
other than Halted (R143) and pc at most 0xFFE (R141): a state that has neither is given mode Running and pc 0x200. -/
def State.withFetchWord (s : State) (nbits w : Nat) : State :=
  let word : Word := BitVec.ofNat 16 (w % 2 ^ nbits)
  let pc : Word := if s.pc.toNat + 1 > 0xFFF then 0x200 else s.pc
  let mode : Mode := match s.mode with
    | .halted _ => .running
    | m => m
  { s with pc := pc, mode := mode }.memWriteList pc.toNat [highByte word, lowByte word]

end Sys2Proof.Machine
end

