-- ==== Sys2Proof/Machine/Transactions.lean ====
section
/-! DEFINITION. The host's transactions (10_state.md rule R48, 70_reset_and_hazards.md rules R440-R448, R455) and the numeric
codes (60_exceptions.md rule R412). Observe reads the state and needs no definition. -/

namespace Sys2Proof.Machine

/-- Construct with a given GLYPH_TABLE (R440): the Reset state with all keys released. -/
def construct (g : GlyphTable) : State := { State.reset with glyphs := g }

/-- Reset (R441-R443). -/
def resetTx (s : State) : State := s.afterReset

/-- What Load returns (R412). -/
inductive LoadResult where
  | ok
  | programTooLarge
  /-- on the host's side only: the core never returns it (R407) -/
  | sourceUnavailable
deriving DecidableEq, Repr

/-- Load(bytes) (R446, R447): longer than 3584 bytes is rejected before any copy; otherwise the bytes go to 0x200 on and
nothing else changes, in every mode. -/
def loadTx (s : State) (bytes : List Byte) : State × LoadResult :=
  if bytes.length > Config.programMax then (s, .programTooLarge)
  else (s.memWriteList Config.programBase bytes, .ok)

/-- SetKeys (R43, R48). -/
def setKeysTx (s : State) (k : Vector Bool 16) : State := { s with keys := k }

/-- ClearDrawFlag (R42, R48). -/
def clearDrawFlagTx (s : State) : State := { s with drawFlag := false }

/-- What the host can do to a constructed machine (R48, R455). -/
inductive Transaction where
  | reset
  | load (bytes : List Byte)
  | step
  | setKeys (k : Vector Bool 16)
  | clearDrawFlag
deriving DecidableEq, Repr

/-- The state after a transaction (R48); each is atomic with respect to the others. -/
def applyTx (s : State) : Transaction → Result
  | .reset => .next (resetTx s)
  | .load bytes => .next (loadTx s bytes).1
  | .step => step s
  | .setKeys k => .next (setKeysTx s k)
  | .clearDrawFlag => .next (clearDrawFlagTx s)

/-- The code of a Step status (R412). -/
def Status.code : Status → Nat
  | .ok => 0
  | .waiting => 1
  | .unknownOpcode _ => 2
  | .fatal _ => 3
  | .halted _ => 4

/-- The code of a fault reason (R412). -/
def FatalReason.code : FatalReason → Nat
  | .stackOverflow => 1
  | .stackUnderflow => 2
  | .addressOutOfRange => 3
  | .keyIndexOutOfRange => 4

/-- The code of a Load result (R412). -/
def LoadResult.code : LoadResult → Nat
  | .ok => 0
  | .programTooLarge => 1
  | .sourceUnavailable => 2

end Sys2Proof.Machine
end

