-- ==== Sys2Proof/Safety.lean ====
section
/-! DEFINITION. The terms claims are stated in: the elements of the state and which of them a transition changes, the
invariants of 10_state.md rule R50, the mode transitions of R156, parked states (R157), runs, and sprites. -/

namespace Sys2Proof.Machine

/-! ## What a transition changes -/

/-- An element of the state (R30), one register, slot, byte or cell at a time. -/
inductive Element where
  | memory (a : Nat)
  | V (r : Reg)
  | I
  | pc
  | stack (j : Fin 16)
  | sp
  | DT
  | ST
  | gfx (k : Fin 2048)
  | keys
  | drawFlag
  | mode
  | glyphs
  | draws
  | out
deriving DecidableEq, Repr

/-- The element holds in `t` what it holds in `s`. -/
def Element.same (s t : State) : Element → Prop
  | .memory a => t.memRead a = s.memRead a
  | .V r => t.readV r = s.readV r
  | .I => t.I = s.I
  | .pc => t.pc = s.pc
  | .stack j => t.stack[j] = s.stack[j]
  | .sp => t.sp = s.sp
  | .DT => t.DT = s.DT
  | .ST => t.ST = s.ST
  | .gfx k => t.gfx.cell k = s.gfx.cell k
  | .keys => t.keys = s.keys
  | .drawFlag => t.drawFlag = s.drawFlag
  | .mode => t.mode = s.mode
  | .glyphs => t.glyphs = s.glyphs
  | .draws => t.draws = s.draws
  | .out => t.out = s.out

/-- From `s` to `t` nothing changes but the elements listed: every register, slot, cell, timer and signal not listed is as
before, and every byte of memory not listed reads as before. -/
def changesOnly (s t : State) (listed : List Element) : Prop :=
  ∀ e : Element, e ∉ listed → e.same s t

/-- The n bytes of memory at I, I+1, … as elements. -/
def State.bytesAtI (s : State) (n : Nat) : List Element := (List.range n).map fun k => .memory (s.dataAddr k)

/-- The registers V0..VX as elements. -/
def registersUpTo (x : Reg) : List Element := ((List.finRange 16).filter fun r => r ≤ x).map .V

/-- Every cell of the framebuffer as an element. -/
def everyCell : List Element := (List.finRange 2048).map .gfx

/-! ## Invariants (R50) -/

/-- Memory is in its canonical form, I and pc are in their ranges, and every stack slot in use holds the address of a word
that can be fetched. sp <= 16, gfx cells 0 or 1, and the 8-bit ranges hold by type. -/
abbrev State.inv (s : State) : Prop :=
  Memory.wf s.glyphs s.mem = true ∧ s.I.toNat ≤ 0xFFF ∧ s.pc.toNat ≤ 0x10FE ∧
    ∀ j : Fin 16, j.val < s.sp.val → s.stack[j].toNat ≤ 0xFFE

/-- A safe outcome: a next state, and one that satisfies the invariants; what every transaction of a safe run answers. -/
abbrev Result.safe : Result → Prop
  | .next t => t.inv
  | .fault _ => False
  | .refused _ => False

/-! ## Shapes of an instruction's effect -/

/-- The instruction completes, which `exec` shows by mode Running (assumption 5), with pc at `target`, and changes no register,
slot, cell, byte of memory, timer or signal. -/
def goesTo (i : Instr) (s : State) (target : Word) : Prop :=
  ∃ t, exec i s = .next t ∧ t.pc = target ∧ t.mode = .running ∧ changesOnly s t [.pc, .mode]

/-- The instruction completes, mode Running (assumption 5), with V[x] holding `value` and pc + 2, and changes nothing else. -/
def writesV (i : Instr) (s : State) (x : Reg) (value : Byte) : Prop :=
  ∃ t, exec i s = .next t ∧ t.readV x = value ∧ t.pc = s.pc + 2 ∧ t.mode = .running ∧
    changesOnly s t [.V x, .pc, .mode]

/-- The instruction is fatal: the record (reason, pc, word) goes into mode Halted and nothing else changes (R149, R401). -/
def fatalWith (i : Instr) (s : State) (reason : FatalReason) : Prop :=
  ∃ t, exec i s = .next t ∧ t.mode = .halted ⟨reason, s.pc, some (encodeWord i)⟩ ∧ changesOnly s t [.mode]

/-- The words with `w & mask = value` are exactly those that decode to an instruction of the given form (R110). -/
def encodedBy (value mask : Word) (form : Instr → Prop) : Prop :=
  ∀ w : Word, w &&& mask = value ↔ ∃ i, form i ∧ decodeWord w = .known i

/-! ## The next instruction, modes and outputs -/

/-- The instruction the next Step would execute: the one fetched at pc, none when the fetch faults or the word is unknown. -/
def State.nextInstr (s : State) : Option Instr :=
  match s.fetch with
  | none => none
  | some w =>
    match decodeWord w with
    | .known i => some i
    | .unknown _ => none

/-- The byte 0x01 when the condition holds, else 0x00 (42_alu.md, the head of the file). -/
def bitByte (c : Prop) [Decidable c] : Byte := if c then 1 else 0

/-- The mode is `Halted`. -/
def Mode.isHalted : Mode → Bool
  | .halted _ => true
  | .running => false
  | .awaitingKey _ => false

/-- The last Step returned beep true (R45). -/
def State.beeped (s : State) : Bool :=
  match s.out with
  | some o => o.beep
  | none => false

/-- A parked state (R157): not Halted, and the word at pc is a jump to itself. -/
def State.parked (s : State) : Prop :=
  s.mode.isHalted = false ∧ ∃ nnn, s.nextInstr = some (.op1NNN nnn) ∧ zextAddr nnn = s.pc

/-! ## Runs -/

/-- k Steps, none fatal and none taken in Halted, none of which executes an instruction that writes a timer (R338). -/
def timersUnwritten : Nat → State → Prop
  | 0, _ => True
  | k + 1, s =>
    (∀ x, s.nextInstr ≠ some (.opFX15 x) ∧ s.nextInstr ≠ some (.opFX18 x)) ∧
      ∃ t, step s = .next t ∧ t.mode.isHalted = false ∧ timersUnwritten k t

/-- How many of the next k Steps return beep true (R153). -/
def beepsIn : Nat → State → Nat
  | 0, _ => 0
  | k + 1, s =>
    match step s with
    | .next t => (if t.beeped then 1 else 0) + beepsIn k t
    | .fault _ => 0
    | .refused _ => 0

/-! ## Sprites (R301-R303) -/

/-- Some 1 bit of the n-row sprite at I lands on the cell: row `row`, column `col` from the left, placed with both coordinates
wrapping. -/
def State.spriteCovers (s : State) (x y : Reg) (n : Rows) (k : Fin 2048) : Bool :=
  (List.range n.val).any fun row => (List.range 8).any fun col =>
    spriteBit (s.memRead (s.dataAddr row)) col && pixelIndex (s.readV x) (s.readV y) row col == k

end Sys2Proof.Machine
end

