-- ==== Sys2Proof/Certificates/Slice0/Obligations.lean ====
section
/-! DEFINITION. The statements for the provers, one definition each, in the order of OBLIGATIONS.json. -/

open Sys2Proof Sys2Proof.Machine

/-! ## Encoding (30_encoding.md) -/

/-- Decoding an instruction's word, or its bytes followed by any others, gives the instruction with every operand. -/
def Obligations.DecodeOfEncodeIsTheInstruction : Prop :=
  ∀ (i : Instr) (rest : List Byte),
    decodeWord (encodeWord i) = .known i ∧ decode (encode i ++ rest) = .ok (i, rest)

/-- A word or two bytes that decode to an instruction are what that instruction encodes to: no bit of an instruction word is
dropped, the unread Y of 8XY6 and 8XYE included. -/
def Obligations.EncodeOfDecodeIsTheWord : Prop :=
  (∀ (w : Word) (i : Instr), decodeWord w = .known i → encodeWord i = w) ∧
  (∀ (high low : Byte) (rest after : List Byte) (i : Instr),
    decode (high :: low :: rest) = .ok (i, after) → encode i = [high, low] ∧ after = rest)

/-- The opcode map of 30_encoding.md section 3: a word is an instruction exactly when it matches a row, the instruction is
that row's, and no word matches two rows. -/
def Obligations.KnownWordsAreTheRowsOfTheMap : Prop :=
  (∀ (w : Word) (i : Instr), decodeWord w = .known i → i.row ∈ opcodeTable ∧ i.row.matchesWord w = true) ∧
  (∀ (w : Word) (r : OpcodeRow), r ∈ opcodeTable → r.matchesWord w = true →
    ∃ i, decodeWord w = .known i ∧ i.row = r) ∧
  (∀ (w : Word) (q r : OpcodeRow), q ∈ opcodeTable → r ∈ opcodeTable →
    q.matchesWord w = true → r.matchesWord w = true → q = r)

/-- R106, R107, R108: families 8, E and F dispatch on the low nibble or the bottom byte. -/
def Obligations.SubDispatchOfFamilies8EF : Prop :=
  ∀ w : Word,
    (bits w 15 12 = 0x8 →
      (bits w 3 0 = 0x0 → decodeWord w = .known (.op8XY0 (fieldX w) (fieldY w))) ∧
      (bits w 3 0 = 0x1 → decodeWord w = .known (.op8XY1 (fieldX w) (fieldY w))) ∧
      (bits w 3 0 = 0x2 → decodeWord w = .known (.op8XY2 (fieldX w) (fieldY w))) ∧
      (bits w 3 0 = 0x3 → decodeWord w = .known (.op8XY3 (fieldX w) (fieldY w))) ∧
      (bits w 3 0 = 0x4 → decodeWord w = .known (.op8XY4 (fieldX w) (fieldY w))) ∧
      (bits w 3 0 = 0x5 → decodeWord w = .known (.op8XY5 (fieldX w) (fieldY w))) ∧
      (bits w 3 0 = 0x6 → decodeWord w = .known (.op8XY6 (fieldX w) (fieldY w))) ∧
      (bits w 3 0 = 0x7 → decodeWord w = .known (.op8XY7 (fieldX w) (fieldY w))) ∧
      (bits w 3 0 = 0xE → decodeWord w = .known (.op8XYE (fieldX w) (fieldY w))) ∧
      (bits w 3 0 ∈ [0x8, 0x9, 0xA, 0xB, 0xC, 0xD, 0xF] → decodeWord w = .unknown w)) ∧
    (bits w 15 12 = 0xE →
      (bits w 7 0 = 0x9E → decodeWord w = .known (.opEX9E (fieldX w))) ∧
      (bits w 7 0 = 0xA1 → decodeWord w = .known (.opEXA1 (fieldX w))) ∧
      (bits w 7 0 ∉ [0x9E, 0xA1] → decodeWord w = .unknown w)) ∧
    (bits w 15 12 = 0xF →
      (bits w 7 0 = 0x07 → decodeWord w = .known (.opFX07 (fieldX w))) ∧
      (bits w 7 0 = 0x0A → decodeWord w = .known (.opFX0A (fieldX w))) ∧
      (bits w 7 0 = 0x15 → decodeWord w = .known (.opFX15 (fieldX w))) ∧
      (bits w 7 0 = 0x18 → decodeWord w = .known (.opFX18 (fieldX w))) ∧
      (bits w 7 0 = 0x1E → decodeWord w = .known (.opFX1E (fieldX w))) ∧
      (bits w 7 0 = 0x29 → decodeWord w = .known (.opFX29 (fieldX w))) ∧
      (bits w 7 0 = 0x33 → decodeWord w = .known (.opFX33 (fieldX w))) ∧
      (bits w 7 0 = 0x55 → decodeWord w = .known (.opFX55 (fieldX w))) ∧
      (bits w 7 0 = 0x65 → decodeWord w = .known (.opFX65 (fieldX w))) ∧
      (bits w 7 0 ∉ [0x07, 0x0A, 0x15, 0x18, 0x1E, 0x29, 0x33, 0x55, 0x65] → decodeWord w = .unknown w))

/-- The words that are not instructions are exactly the five groups of 30_encoding.md section 4; that 0NNN, 5XYn and 9XYn
are among them is the spec's decision D13. -/
def Obligations.UnknownWordsAreTheFiveGroups : Prop :=
  ∀ w : Word, decodeWord w = .unknown w ↔
    (bits w 15 12 = 0x0 ∧ w ≠ 0x00E0 ∧ w ≠ 0x00EE) ∨
    ((bits w 15 12 = 0x5 ∨ bits w 15 12 = 0x9) ∧ bits w 3 0 ≠ 0) ∨
    (bits w 15 12 = 0x8 ∧ bits w 3 0 ∈ [0x8, 0x9, 0xA, 0xB, 0xC, 0xD, 0xF]) ∨
    (bits w 15 12 = 0xE ∧ bits w 7 0 ∉ [0x9E, 0xA1]) ∨
    (bits w 15 12 = 0xF ∧ bits w 7 0 ∉ [0x07, 0x0A, 0x15, 0x18, 0x1E, 0x29, 0x33, 0x55, 0x65])

/-- R101: the fields of a word are its bits at the fixed positions (family 15-12, X 11-8, Y 7-4, N 3-0, NN 7-0, NNN 11-0), and
the operands of the decoded instruction are those of the fields its pattern uses (`Instr.fields`). -/
def Obligations.OperandsAreTheBitsAtTheirPositions : Prop :=
  ∀ w : Word,
    (family w = w.toNat / 4096 ∧ (fieldX w).val = w.toNat / 256 % 16 ∧ (fieldY w).val = w.toNat / 16 % 16 ∧
      (fieldN w).val = w.toNat % 16 ∧ (fieldNN w).toNat = w.toNat % 256 ∧ (fieldNNN w).toNat = w.toNat % 4096) ∧
    ∀ i : Instr, decodeWord w = .known i →
      ∀ f ∈ i.fields, f.value = bits w f.hi f.lo ∧
        ((f.hi, f.lo) = (11, 8) ∨ (f.hi, f.lo) = (7, 4) ∨ (f.hi, f.lo) = (3, 0) ∨ (f.hi, f.lo) = (7, 0) ∨
          (f.hi, f.lo) = (11, 0))

/-- A sanity statement: one word of each format, written out from its encoding, is the instruction it stands for. -/
def Obligations.WordsOfEachFormatDecode : Prop :=
  decodeWord 0b0000000011101110#16 = .known .op00EE ∧
  decodeWord 0b1010001011110000#16 = .known (.opANNN 0x2F0) ∧
  decodeWord 0b0110101001000010#16 = .known (.op6XNN 0xA 0x42) ∧
  decodeWord 0b1000000000010100#16 = .known (.op8XY4 0 1) ∧
  decodeWord 0b1101000000010101#16 = .known (.opDXYN 0 1 5) ∧
  decodeWord 0b1111001000011110#16 = .known (.opFX1E 2) ∧
  decodeWord 0b0101000100100001#16 = .unknown 0x5121

/-! ## The instruction cycle (40_cycle.md) -/

/-- A Step of a machine that is not Halted, whose word at pc, high byte first, decodes to an instruction, is that instruction's
execute phase and then: the timers count down, and the Step returns Ok with a beep exactly when ST was 1, if it is done; the
same with status Waiting if it waits; and status Fatal, no beep and no timer step if it is fatal (decisions D2, D11, D12). -/
def Obligations.StepRunsTheDecodedInstruction : Prop :=
  ∀ (s t : State) (i : Instr), s.mode.isHalted = false → s.pc.toNat + 1 ≤ 0xFFF →
    decodeWord (wordOfBytes (s.memRead s.pc.toNat) (s.memRead (s.pc.toNat + 1))) = .known i → exec i s = .next t →
    (t.mode = .running →
      step s = .next { t with DT := countDown t.DT, ST := countDown t.ST, out := some ⟨.ok, t.ST == 1⟩ }) ∧
    (∀ x, t.mode = .awaitingKey x →
      step s = .next { t with DT := countDown t.DT, ST := countDown t.ST, out := some ⟨.waiting, t.ST == 1⟩ }) ∧
    (∀ f, t.mode = .halted f → step s = .next { t with out := some ⟨.fatal f, false⟩ })

/-- The fetch: past pc + 1 = 0xFFF it fails, and the Step is fatal with AddressOutOfRange, no word, pc kept; at every other pc,
odd or even, it reads the two bytes at pc and pc + 1, the first in bits 15-8. The fatal outcome is the spec's decision D2. -/
def Obligations.FetchReadsBigEndianOrFails : Prop :=
  (∀ s : State, 0xFFF < s.pc.toNat + 1 → s.fetch = none ∧
    (s.mode.isHalted = false →
      step s = .next { s with mode := .halted ⟨.addressOutOfRange, s.pc, none⟩,
                              out := some ⟨.fatal ⟨.addressOutOfRange, s.pc, none⟩, false⟩ })) ∧
  (∀ s : State, s.pc.toNat + 1 ≤ 0xFFF →
    ∃ w, s.fetch = some w ∧
      w.toNat = (s.memRead s.pc.toNat).toNat * 256 + (s.memRead (s.pc.toNat + 1)).toNat)

/-- R151: a word that decodes to Unknown is reported, pc advances by 2, mode is Running, the timer step runs (its beep exactly
when ST was 1), and nothing else changes. -/
def Obligations.UnknownWordIsReportedAndSkipped : Prop :=
  ∀ (s : State) (w : Word), s.mode.isHalted = false → s.fetch = some w → decodeWord w = .unknown w →
    ∃ t, step s = .next t ∧ t.out = some ⟨.unknownOpcode w, s.ST == 1⟩ ∧ t.pc = s.pc + 2 ∧ t.mode = .running ∧
      t.DT.toNat = s.DT.toNat - 1 ∧ t.ST.toNat = s.ST.toNat - 1 ∧
      changesOnly s t [.pc, .mode, .DT, .ST, .out]

/-- A Step taken in Halted changes no state and returns Halted with beep false (the spec's decision D2). -/
def Obligations.HaltedStepChangesNothing : Prop :=
  ∀ (s : State) (f : FatalRecord), s.mode = .halted f →
    ∃ t, step s = .next t ∧ t.out = some ⟨.halted f, false⟩ ∧ t.mem = s.mem ∧ changesOnly s t [.out]

/-- A Step that returns Fatal changes nothing but mode, which records the reason, pc at the start and the fetched word, or none
when the fetch failed; no beep (the spec's decision D2). -/
def Obligations.FatalStepIsPrecise : Prop :=
  ∀ (s t : State) (f : FatalRecord) (b : Bool), step s = .next t → t.out = some ⟨.fatal f, b⟩ →
    t.mode = .halted f ∧ f.pc = s.pc ∧ f.word = s.fetch ∧ b = false ∧ t.mem = s.mem ∧ changesOnly s t [.mode, .out]

/-- When a Step is fatal and why: overflow and underflow of the stack, the fetch or the data past 0xFFF, a key index above 15,
and nothing else (60_exceptions.md sections 2 and 3; the data range is decision D3, the key index D9, the order D22). -/
def Obligations.FatalReasonsMatchTheirCauses : Prop :=
  ∀ (s : State) (r : FatalReason), s.mode.isHalted = false →
    ((∃ t f b, step s = .next t ∧ t.out = some ⟨.fatal f, b⟩ ∧ f.reason = r) ↔
      match r with
      | .stackOverflow => (∃ nnn, s.nextInstr = some (.op2NNN nnn)) ∧ s.sp.val = 16
      | .stackUnderflow => s.nextInstr = some .op00EE ∧ s.sp.val = 0
      | .addressOutOfRange =>
        s.fetch = none ∨
        (∃ x y n, s.nextInstr = some (.opDXYN x y n) ∧ 0 < n.val ∧ 0xFFF < s.I.toNat + n.val - 1) ∨
        (∃ x, s.nextInstr = some (.opFX33 x) ∧ 0xFFF < s.I.toNat + 2) ∨
        (∃ x, (s.nextInstr = some (.opFX55 x) ∨ s.nextInstr = some (.opFX65 x)) ∧ 0xFFF < s.I.toNat + x.val)
      | .keyIndexOutOfRange =>
        ∃ x, (s.nextInstr = some (.opEX9E x) ∨ s.nextInstr = some (.opEXA1 x)) ∧ 15 < (s.readV x).toNat)

/-- The block never stops by itself (the spec's decision D23): every Step from every state answers a next state, a fatal
Step (decision D2) and one taken in Halted included; that these are next states and no stops of the model is assumption 14. -/
def Obligations.EveryStepAnswersANextState : Prop := ∀ s : State, ∃ t, step s = .next t

/-- New pc: two or four bytes on, an explicit target, or unchanged in a Step that waits, is fatal or is taken in Halted. The
return to the address of the 00EE itself, which the spec's list of unchanged cases leaves out, counts as an explicit target
(assumption 8). -/
def Obligations.NewPcIsNextSkipOrTarget : Prop :=
  ∀ s t : State, step s = .next t →
    t.pc = s.pc + 2 ∨
    (t.pc = s.pc + 4 ∧ ∃ x y nn, s.nextInstr ∈ [some (.op3XNN x nn), some (.op4XNN x nn), some (.op5XY0 x y),
      some (.op9XY0 x y), some (.opEX9E x), some (.opEXA1 x)]) ∨
    (∃ nnn, (s.nextInstr = some (.op1NNN nnn) ∨ s.nextInstr = some (.op2NNN nnn)) ∧ t.pc.toNat = nnn.toNat) ∨
    (∃ nnn, s.nextInstr = some (.opBNNN nnn) ∧ t.pc.toNat = (s.readV 0).toNat + nnn.toNat) ∨
    (∃ j : Fin 16, s.nextInstr = some .op00EE ∧ j.val + 1 = s.sp.val ∧ t.pc = s.stack[j] + 2) ∨
    (t.pc = s.pc ∧ ((∃ x b, s.nextInstr = some (.opFX0A x) ∧ t.out = some ⟨.waiting, b⟩) ∨
      (∃ f b, t.out = some ⟨.fatal f, b⟩) ∨ (∃ f b, t.out = some ⟨.halted f, b⟩)))

/-- R152: at the end of every Step that is not fatal and not taken in Halted, DT is one less than what the instruction left in
it and never below 0: FX15 leaves V[X], every other instruction the old DT, and FX07 reads the value before. -/
def Obligations.DelayTimerCountsDownOncePerStep : Prop :=
  ∀ s t : State, step s = .next t → s.mode.isHalted = false → t.mode.isHalted = false →
    (∀ x, s.nextInstr = some (.opFX15 x) → t.DT.toNat = (s.readV x).toNat - 1) ∧
    ((∀ x, s.nextInstr ≠ some (.opFX15 x)) → t.DT.toNat = s.DT.toNat - 1) ∧
    (∀ x, s.nextInstr = some (.opFX07 x) → t.readV x = s.DT)

/-- The sound timer counts down as DT does, and the Step beeps exactly when that takes it from 1 to 0; FX18 leaves V[X] to count
down; no beep in a Step that is fatal or taken in Halted (the spec's decisions D11, D12). -/
def Obligations.SoundTimerBeepsOnTheStepFromOneToZero : Prop :=
  ∀ s t : State, step s = .next t →
    (s.mode.isHalted = false → t.mode.isHalted = false →
      (∀ x, s.nextInstr = some (.opFX18 x) →
        t.ST.toNat = (s.readV x).toNat - 1 ∧ (t.beeped = true ↔ s.readV x = 1)) ∧
      ((∀ x, s.nextInstr ≠ some (.opFX18 x)) → t.ST.toNat = s.ST.toNat - 1 ∧ (t.beeped = true ↔ s.ST = 1))) ∧
    (t.mode.isHalted = true → t.ST = s.ST ∧ t.DT = s.DT ∧ t.beeped = false)

/-- The mode transitions of 40_cycle.md section 5, with the status each returns: Halted stays, a Step that completes or reports
goes to Running, FX0A with no key pressed goes to AwaitingKey(X), a fatal Step goes to Halted; Reset goes to Running and the
other transactions leave mode. -/
def Obligations.ModeTransitionsAreTheListed : Prop :=
  (∀ (s t : State) (f : FatalRecord), step s = .next t → s.mode = .halted f →
    t.mode = .halted f ∧ t.out = some ⟨.halted f, false⟩) ∧
  (∀ s t : State, step s = .next t → s.mode.isHalted = false →
    (t.mode = .running ∧ ∃ b, t.out = some ⟨.ok, b⟩ ∨ ∃ w, s.fetch = some w ∧ t.out = some ⟨.unknownOpcode w, b⟩) ∨
    (∃ x b, s.nextInstr = some (.opFX0A x) ∧ (∀ k : Fin 16, s.keys[k] = false) ∧ t.mode = .awaitingKey x ∧
      t.out = some ⟨.waiting, b⟩) ∨
    (∃ f, t.mode = .halted f ∧ t.out = some ⟨.fatal f, false⟩)) ∧
  (∀ s : State, (resetTx s).mode = .running) ∧
  (∀ (s : State) (bytes : List Byte), (loadTx s bytes).1.mode = s.mode) ∧
  (∀ (s : State) (k : Vector Bool 16), (setKeysTx s k).mode = s.mode) ∧
  (∀ s : State, (clearDrawFlagTx s).mode = s.mode)

/-- AwaitingKey is informative: a Step behaves the same in Running and in AwaitingKey(X). -/
def Obligations.AwaitingKeyStepsAsRunning : Prop :=
  ∀ (s : State) (x : Reg), s.mode = .awaitingKey x → step s = step { s with mode := .running }

/-- A parked state stays parked: k Steps later pc, V, I, stack, sp, memory, gfx, drawFlag and keys are as before, and DT and ST
have only counted down (the spec's decision D23). -/
def Obligations.ParkedStateOnlyCountsTimersDown : Prop :=
  ∀ (k : Nat) (s : State), s.parked →
    ∃ t, Host.Core.run Sys2Proof.core k s = .next t ∧ t.parked ∧ t.mem = s.mem ∧
      changesOnly s t [.DT, .ST, .mode, .out] ∧ t.DT.toNat = s.DT.toNat - k ∧ t.ST.toNat = s.ST.toNat - k

/-- The timer law of 45_keys_timers.md section 5: over k Steps none of which is fatal, taken in Halted, or writes a timer, both
timers count down by k and stay at 0, and ST's run from nonzero to zero gives exactly one beep. -/
def Obligations.TimersReachZeroAndBeepOnce : Prop :=
  ∀ (k : Nat) (s : State), s.mode.isHalted = false → timersUnwritten k s →
    ∃ t, Host.Core.run Sys2Proof.core k s = .next t ∧
      t.DT.toNat = s.DT.toNat - k ∧ t.ST.toNat = s.ST.toNat - k ∧
      beepsIn k s = (if 0 < s.ST.toNat ∧ s.ST.toNat ≤ k then 1 else 0)

/-! ## Control flow (41_flow.md) -/

/-- 00EE: with an entry in use, sp goes down by 1 and pc is the slot's value plus 2, the slot keeping its value; with none,
it is fatal with StackUnderflow and nothing else changes (the fatal outcome is decision D2). A completed instruction leaves
mode Running, which the model sets within exec (assumption 5). -/
def Obligations.ReturnGoesPastTheCall : Prop :=
  (∀ (s : State) (j : Fin 16), j.val + 1 = s.sp.val →
    ∃ t, exec .op00EE s = .next t ∧ t.sp.val = j.val ∧ t.pc = s.stack[j] + 2 ∧ t.mode = .running ∧
      changesOnly s t [.sp, .pc, .mode]) ∧
  (∀ s : State, s.sp.val = 0 → fatalWith .op00EE s .stackUnderflow) ∧
  encodedBy 0x00EE 0xFFFF fun i => i = .op00EE

/-- R181: 1NNN sets pc to NNN and changes nothing else; the word is 0x1000 under mask 0xF000; at NNN = 0xFFF the next fetch
fails. A completed instruction leaves mode Running, which the model sets within exec (assumption 5). -/
def Obligations.JumpGoesToItsAddress : Prop :=
  (∀ (s : State) (nnn : Addr), goesTo (.op1NNN nnn) s (nnn.setWidth 16)) ∧
  (∀ (s t : State), exec (.op1NNN 0xFFF) s = .next t → t.fetch = none) ∧
  encodedBy 0x1000 0xF000 fun i => ∃ nnn, i = .op1NNN nnn

/-- 2NNN: with a slot free, the slot at sp takes the address of the 2NNN itself, sp goes up by 1 and pc is NNN; with 16
entries in use it is fatal with StackOverflow and nothing else changes (the fatal outcome is decision D2). A completed
instruction leaves mode Running, which the model sets within exec (assumption 5). -/
def Obligations.CallPushesItsOwnAddress : Prop :=
  (∀ (s : State) (nnn : Addr) (j : Fin 16), j.val = s.sp.val →
    ∃ t, exec (.op2NNN nnn) s = .next t ∧ t.stack[j] = s.pc ∧ t.sp.val = j.val + 1 ∧ t.pc = nnn.setWidth 16 ∧
      t.mode = .running ∧ changesOnly s t [.stack j, .sp, .pc, .mode]) ∧
  (∀ (s : State) (nnn : Addr), s.sp.val = 16 → fatalWith (.op2NNN nnn) s .stackOverflow) ∧
  encodedBy 0x2000 0xF000 fun i => ∃ nnn, i = .op2NNN nnn

/-- R183-R186: the conditional skips compare a register with a byte or with a register, for equal or not equal, advance pc
by 4 or by 2, and change nothing else. A completed instruction leaves mode Running, which the model sets within exec
(assumption 5). -/
def Obligations.SkipsAdvanceByFourOrTwo : Prop :=
  (∀ (s : State) (x y : Reg) (nn : Byte),
    goesTo (.op3XNN x nn) s (if s.readV x = nn then s.pc + 4 else s.pc + 2) ∧
    goesTo (.op4XNN x nn) s (if s.readV x ≠ nn then s.pc + 4 else s.pc + 2) ∧
    goesTo (.op5XY0 x y) s (if s.readV x = s.readV y then s.pc + 4 else s.pc + 2) ∧
    goesTo (.op9XY0 x y) s (if s.readV x ≠ s.readV y then s.pc + 4 else s.pc + 2)) ∧
  (encodedBy 0x3000 0xF000 fun i => ∃ x nn, i = .op3XNN x nn) ∧
  (encodedBy 0x4000 0xF000 fun i => ∃ x nn, i = .op4XNN x nn) ∧
  (encodedBy 0x5000 0xF00F fun i => ∃ x y, i = .op5XY0 x y) ∧
  (encodedBy 0x9000 0xF00F fun i => ∃ x y, i = .op9XY0 x y)

/-- BNNN goes to V0 plus NNN, an exact sum that is not reduced modulo 0x1000, and changes nothing else (the spec's decision
D26). A completed instruction leaves mode Running, which the model sets within exec (assumption 5). -/
def Obligations.ComputedJumpAddsV0Exactly : Prop :=
  (∀ (s : State) (nnn : Addr), ∃ t, exec (.opBNNN nnn) s = .next t ∧
    t.pc.toNat = (s.readV 0).toNat + nnn.toNat ∧ t.mode = .running ∧ changesOnly s t [.pc, .mode]) ∧
  encodedBy 0xB000 0xF000 fun i => ∃ nnn, i = .opBNNN nnn

/-- R189: from pc = a and sp = s < 16, the Step of a 2NNN gives stack[s] = a, sp = s + 1 and pc = NNN, and the Step of a 00EE at
NNN then gives sp = s and pc = a + 2. -/
def Obligations.CallThenReturnRoundTrip : Prop :=
  ∀ (s : State) (nnn : Addr) (j : Fin 16), s.mode.isHalted = false → s.nextInstr = some (.op2NNN nnn) →
    j.val = s.sp.val → nnn.toNat + 1 ≤ 0xFFF → s.memRead nnn.toNat = 0x00 → s.memRead (nnn.toNat + 1) = 0xEE →
    ∃ t u, step s = .next t ∧ t.stack[j] = s.pc ∧ t.sp.val = s.sp.val + 1 ∧ t.pc = nnn.setWidth 16 ∧
      step t = .next u ∧ u.sp = s.sp ∧ u.pc = s.pc + 2

/-! ## The ALU (42_alu.md) -/

/-- R220, R221: 6XNN loads NN, 7XNN adds NN modulo 256 with no flag; each writes V[X], pc and nothing else. A completed
instruction leaves mode Running, which the model sets within exec (assumption 5). -/
def Obligations.ByteLoadAndByteAdd : Prop :=
  (∀ (s : State) (x : Reg) (nn : Byte), writesV (.op6XNN x nn) s x nn ∧
    writesV (.op7XNN x nn) s x (BitVec.ofNat 8 (((s.readV x).toNat + nn.toNat) % 256))) ∧
  (encodedBy 0x6000 0xF000 fun i => ∃ x nn, i = .op6XNN x nn) ∧
  (encodedBy 0x7000 0xF000 fun i => ∃ x nn, i = .op7XNN x nn)

/-- R222-R225: copy, or, and, exclusive or; each writes V[X], pc and nothing else, VF only when it is V[X]. A completed
instruction leaves mode Running, which the model sets within exec (assumption 5). -/
def Obligations.RegisterMoveAndLogic : Prop :=
  (∀ (s : State) (x y : Reg), writesV (.op8XY0 x y) s x (s.readV y) ∧
    writesV (.op8XY1 x y) s x (s.readV x ||| s.readV y) ∧
    writesV (.op8XY2 x y) s x (s.readV x &&& s.readV y) ∧
    writesV (.op8XY3 x y) s x (s.readV x ^^^ s.readV y)) ∧
  (encodedBy 0x8000 0xF00F fun i => ∃ x y, i = .op8XY0 x y) ∧
  (encodedBy 0x8001 0xF00F fun i => ∃ x y, i = .op8XY1 x y) ∧
  (encodedBy 0x8002 0xF00F fun i => ∃ x y, i = .op8XY2 x y) ∧
  (encodedBy 0x8003 0xF00F fun i => ∃ x y, i = .op8XY3 x y)

/-- 8XY4: VF is the carry of the exact sum and V[X] the sum modulo 256; when X or Y is F the flag is written first and the
result reads it (the spec's decision D5), so X = F gives c + V[Y], Y = F gives V[X] + c, and X = Y = F gives 2c. A completed
instruction leaves mode Running, which the model sets within exec (assumption 5). -/
def Obligations.AddWritesCarryThenSum : Prop :=
  ∀ (s : State) (x y : Reg), ∃ t, exec (.op8XY4 x y) s = .next t ∧ t.pc = s.pc + 2 ∧
    t.mode = .running ∧ changesOnly s t [.V x, .V 15, .pc, .mode] ∧
    let c := bitByte ((s.readV x).toNat + (s.readV y).toNat > 255)
    (x ≠ 15 → t.readV 15 = c) ∧
    (x ≠ 15 → y ≠ 15 → (t.readV x).toNat = ((s.readV x).toNat + (s.readV y).toNat) % 256) ∧
    (x = 15 → y ≠ 15 → (t.readV 15).toNat = (c.toNat + (s.readV y).toNat) % 256) ∧
    (x ≠ 15 → y = 15 → (t.readV x).toNat = ((s.readV x).toNat + c.toNat) % 256) ∧
    (x = 15 → y = 15 → (t.readV 15).toNat = 2 * c.toNat)

/-- 8XY5: VF is 1 exactly when V[X] > V[Y], strictly, and V[X] the difference modulo 256; with VF as an operand the flag f
is written first (decision D5): X = F gives f - V[Y], Y = F gives V[X] - f, X = Y = F gives 0. A completed instruction
leaves mode Running, which the model sets within exec (assumption 5). -/
def Obligations.SubtractWritesStrictFlagThenDifference : Prop :=
  ∀ (s : State) (x y : Reg), ∃ t, exec (.op8XY5 x y) s = .next t ∧ t.pc = s.pc + 2 ∧
    t.mode = .running ∧ changesOnly s t [.V x, .V 15, .pc, .mode] ∧
    let f := bitByte ((s.readV x).toNat > (s.readV y).toNat)
    (x ≠ 15 → t.readV 15 = f) ∧
    (x ≠ 15 → y ≠ 15 → (t.readV x).toNat = ((s.readV x).toNat + 256 - (s.readV y).toNat) % 256) ∧
    (x = 15 → y ≠ 15 → (t.readV 15).toNat = (f.toNat + 256 - (s.readV y).toNat) % 256) ∧
    (x ≠ 15 → y = 15 → (t.readV x).toNat = ((s.readV x).toNat + 256 - f.toNat) % 256) ∧
    (x = 15 → y = 15 → t.readV 15 = 0)

/-- 8XY7: as 8XY5 with the operands exchanged: VF is 1 exactly when V[Y] > V[X] and V[X] takes V[Y] - V[X] modulo 256; with
VF as an operand (decision D5): X = F gives V[Y] - f, Y = F gives f - V[X], X = Y = F gives 0. A completed instruction
leaves mode Running, which the model sets within exec (assumption 5). -/
def Obligations.ReverseSubtractWritesStrictFlagThenDifference : Prop :=
  ∀ (s : State) (x y : Reg), ∃ t, exec (.op8XY7 x y) s = .next t ∧ t.pc = s.pc + 2 ∧
    t.mode = .running ∧ changesOnly s t [.V x, .V 15, .pc, .mode] ∧
    let f := bitByte ((s.readV y).toNat > (s.readV x).toNat)
    (x ≠ 15 → t.readV 15 = f) ∧
    (x ≠ 15 → y ≠ 15 → (t.readV x).toNat = ((s.readV y).toNat + 256 - (s.readV x).toNat) % 256) ∧
    (x = 15 → y ≠ 15 → (t.readV 15).toNat = ((s.readV y).toNat + 256 - f.toNat) % 256) ∧
    (x ≠ 15 → y = 15 → (t.readV x).toNat = (f.toNat + 256 - (s.readV x).toNat) % 256) ∧
    (x = 15 → y = 15 → t.readV 15 = 0)

/-- 8XY6 and 8XYE shift V[X] by one, VF takes the bit shifted out and Y is not read; when X is F the flag is written first
(decision D5), so 8FY6 always gives 0 and 8FYE gives 2 when bit 7 was set and 0 otherwise. A completed instruction leaves
mode Running, which the model sets within exec (assumption 5). -/
def Obligations.ShiftsWriteTheBitShiftedOut : Prop :=
  ∀ (s : State) (x y : Reg),
    (∃ t, exec (.op8XY6 x y) s = .next t ∧ t.pc = s.pc + 2 ∧ t.mode = .running ∧
      changesOnly s t [.V x, .V 15, .pc, .mode] ∧
      (x ≠ 15 → (t.readV 15).toNat = (s.readV x).toNat % 2 ∧ (t.readV x).toNat = (s.readV x).toNat / 2) ∧
      (x = 15 → t.readV 15 = 0)) ∧
    (∃ t, exec (.op8XYE x y) s = .next t ∧ t.pc = s.pc + 2 ∧ t.mode = .running ∧
      changesOnly s t [.V x, .V 15, .pc, .mode] ∧
      (x ≠ 15 → (t.readV 15).toNat = (s.readV x).toNat / 128 ∧ (t.readV x).toNat = (s.readV x).toNat * 2 % 256) ∧
      (x = 15 → (t.readV 15).toNat = 2 * ((s.readV 15).toNat / 128)))

/-- CXNN writes the byte of a free draw masked by NN, so V[X] has no bit that NN has not; the draw is the free value of this
state's counter, which then counts on (the spec's decision D21, assumption 2). A completed instruction leaves mode Running,
which the model sets within exec (assumption 5). -/
def Obligations.RandomByteIsMasked : Prop :=
  ∀ (s : State) (x : Reg) (nn : Byte), ∃ t, exec (.opCXNN x nn) s = .next t ∧
    t.readV x = Config.randomByte s.draws &&& nn ∧ t.readV x &&& ~~~nn = 0 ∧ t.draws = s.draws + 1 ∧
    t.pc = s.pc + 2 ∧ t.mode = .running ∧ changesOnly s t [.V x, .pc, .mode, .draws]

/-! ## Index register and memory (43_index_memory.md) -/

/-- R260, R262: ANNN sets I to NNN, FX29 to five times V[X], unmasked; nothing else changes. A completed instruction leaves
mode Running, which the model sets within exec (assumption 5). -/
def Obligations.IndexLoadsAddressOrGlyph : Prop :=
  (∀ (s : State) (nnn : Addr), ∃ t, exec (.opANNN nnn) s = .next t ∧ t.I.toNat = nnn.toNat ∧ t.pc = s.pc + 2 ∧
    t.mode = .running ∧ changesOnly s t [.I, .pc, .mode]) ∧
  (∀ (s : State) (x : Reg), ∃ t, exec (.opFX29 x) s = .next t ∧ t.I.toNat = (s.readV x).toNat * 5 ∧ t.pc = s.pc + 2 ∧
    t.mode = .running ∧ changesOnly s t [.I, .pc, .mode]) ∧
  (encodedBy 0xA000 0xF000 fun i => ∃ nnn, i = .opANNN nnn) ∧
  (encodedBy 0xF029 0xF0FF fun i => ∃ x, i = .opFX29 x)

/-- FX1E adds V[X] to I modulo 0x1000, with no flag, and changes nothing else (the spec's decision D4). A completed
instruction leaves mode Running, which the model sets within exec (assumption 5). -/
def Obligations.IndexAddWrapsInTheAddressRange : Prop :=
  ∀ (s : State) (x : Reg), ∃ t, exec (.opFX1E x) s = .next t ∧
    t.I.toNat = (s.I.toNat + (s.readV x).toNat) % 0x1000 ∧ t.pc = s.pc + 2 ∧
    t.mode = .running ∧ changesOnly s t [.I, .pc, .mode]

/-- FX33: with I + 2 in range, the bytes at I, I+1, I+2 are the hundreds, tens and ones of V[X] and nothing else changes;
past 0xFFF it is fatal before any write (the spec's decision D3). A completed instruction leaves mode Running, which the
model sets within exec (assumption 5). -/
def Obligations.DecimalDigitsAreStored : Prop :=
  ∀ (s : State) (x : Reg),
    (s.I.toNat + 2 ≤ 0xFFF → ∃ t, exec (.opFX33 x) s = .next t ∧
      (t.memRead (s.dataAddr 0)).toNat = (s.readV x).toNat / 100 ∧
      (t.memRead (s.dataAddr 1)).toNat = (s.readV x).toNat / 10 % 10 ∧
      (t.memRead (s.dataAddr 2)).toNat = (s.readV x).toNat % 10 ∧
      t.pc = s.pc + 2 ∧ t.mode = .running ∧ changesOnly s t (s.bytesAtI 3 ++ [.pc, .mode])) ∧
    (0xFFF < s.I.toNat + 2 → fatalWith (.opFX33 x) s .addressOutOfRange)

/-- FX55: with I + X in range, the bytes at I .. I+X are V0 .. VX and nothing else changes, I included; past 0xFFF it is
fatal before any write (the spec's decision D3). A completed instruction leaves mode Running, which the model sets within
exec (assumption 5). -/
def Obligations.RegistersAreStored : Prop :=
  ∀ (s : State) (x : Reg),
    (s.I.toNat + x.val ≤ 0xFFF → ∃ t, exec (.opFX55 x) s = .next t ∧
      (∀ r : Reg, r ≤ x → t.memRead (s.dataAddr r.val) = s.readV r) ∧
      t.pc = s.pc + 2 ∧ t.mode = .running ∧ changesOnly s t (s.bytesAtI (x.val + 1) ++ [.pc, .mode])) ∧
    (0xFFF < s.I.toNat + x.val → fatalWith (.opFX55 x) s .addressOutOfRange)

/-- FX65: with I + X in range, V0 .. VX are the bytes at I .. I+X and nothing else changes, I and the registers above X
included; past 0xFFF it is fatal before any write (the spec's decision D3). A completed instruction leaves mode Running,
which the model sets within exec (assumption 5). -/
def Obligations.RegistersAreLoaded : Prop :=
  ∀ (s : State) (x : Reg),
    (s.I.toNat + x.val ≤ 0xFFF → ∃ t, exec (.opFX65 x) s = .next t ∧
      (∀ r : Reg, r ≤ x → t.readV r = s.memRead (s.dataAddr r.val)) ∧
      t.pc = s.pc + 2 ∧ t.mode = .running ∧ changesOnly s t (registersUpTo x ++ [.pc, .mode])) ∧
    (0xFFF < s.I.toNat + x.val → fatalWith (.opFX65 x) s .addressOutOfRange)

/-- A stored instruction is the one fetched next: after the Step of an FX55 with X > 0 that writes over the two bytes after it,
the next Step fetches V0 and V1 as the word, high byte first (20_memory.md section 3). -/
def Obligations.StoredWordIsFetchedNext : Prop :=
  ∀ (s : State) (x : Reg), s.mode.isHalted = false → s.nextInstr = some (.opFX55 x) → 0 < x.val →
    s.I.toNat = s.pc.toNat + 2 → s.I.toNat + x.val ≤ 0xFFF →
    ∃ t, step s = .next t ∧ t.fetch = some (wordOfBytes (s.readV 0) (s.readV 1))

/-! ## Display (44_display.md) -/

/-- R300: 00E0 makes all 2048 cells 0, sets drawFlag, and changes nothing else; a second 00E0 changes neither. A completed
instruction leaves mode Running, which the model sets within exec (assumption 5). -/
def Obligations.ClearScreenClearsEveryCell : Prop :=
  (∀ s : State, ∃ t, exec .op00E0 s = .next t ∧ (∀ k, t.gfx.cell k = false) ∧ t.drawFlag = true ∧ t.pc = s.pc + 2 ∧
    t.mode = .running ∧ changesOnly s t (everyCell ++ [.drawFlag, .pc, .mode]) ∧
    ∃ u, exec .op00E0 t = .next u ∧ u.gfx = t.gfx ∧ u.drawFlag = t.drawFlag) ∧
  encodedBy 0x00E0 0xFFFF fun i => i = .op00E0

/-- R42: 00E0 and a DXYN that completes set drawFlag, no instruction clears it and no other sets it; ClearDrawFlag clears it
and changes nothing else; Reset clears it. That a DXYN completes shows by mode Running, which the model sets within exec
(assumption 5). -/
def Obligations.RedrawSignalIsSetByDrawingAndClearedByTheHost : Prop :=
  (∀ (s t : State) (i : Instr), exec i s = .next t → s.drawFlag = true → t.drawFlag = true) ∧
  (∀ (s t : State) (i : Instr), exec i s = .next t → s.drawFlag = false →
    (t.drawFlag = true ↔ t.mode = .running ∧ (i = .op00E0 ∨ ∃ x y n, i = .opDXYN x y n))) ∧
  (∀ s : State, (clearDrawFlagTx s).drawFlag = false ∧ changesOnly s (clearDrawFlagTx s) [.drawFlag]) ∧
  (∀ s : State, (resetTx s).drawFlag = false)

/-- DXYN, drawn pixel by pixel, is the exclusive or of the framebuffer with the cells the sprite covers: bit 7 leftmost
(decision D8), coordinates wrapping (D6), VF 1 exactly when a covered cell held 1 (D7), drawFlag set; past 0xFFF it is fatal
before any write (D3); with N = 0 no byte is needed. A completed instruction leaves mode Running, which the model sets
within exec (assumption 5). -/
def Obligations.DrawIsTheExclusiveOrOfTheSprite : Prop :=
  ∀ (s : State) (x y : Reg) (n : Rows),
    (n.val = 0 ∨ s.I.toNat + n.val - 1 ≤ 0xFFF → ∃ t, exec (.opDXYN x y n) s = .next t ∧
      (∀ k, t.gfx.cell k = xor (s.gfx.cell k) (s.spriteCovers x y n k)) ∧
      ((∃ k, s.gfx.cell k = true ∧ s.spriteCovers x y n k = true) → t.readV 15 = 1) ∧
      ((∀ k, s.spriteCovers x y n k = true → s.gfx.cell k = false) → t.readV 15 = 0) ∧
      t.drawFlag = true ∧ t.pc = s.pc + 2 ∧
      t.mode = .running ∧ changesOnly s t (everyCell ++ [.V 15, .drawFlag, .pc, .mode])) ∧
    (0 < n.val → 0xFFF < s.I.toNat + n.val - 1 → fatalWith (.opDXYN x y n) s .addressOutOfRange)

/-- No two pixels of one sprite land on the same cell: 8 columns and at most 15 rows under the wrap of decision D6. -/
def Obligations.SpritePixelsLandOnDistinctCells : Prop :=
  ∀ (x0 y0 : Byte) (row row' col col' : Nat), row < 15 → row' < 15 → col < 8 → col' < 8 →
    pixelIndex x0 y0 row col = pixelIndex x0 y0 row' col' → row = row' ∧ col = col'

/-- The draw-twice law of 44_display.md section 2: with neither X nor Y naming VF, a second draw of the same sprite at the same
place restores the framebuffer, and gives VF 1 exactly when some cell the sprite covers held 0 before the first draw (the
spec's sentence leaves out the sprite whose covered cells all held 1: the first draw clears them; assumption 9). -/
def Obligations.DrawTwiceRestoresTheFrame : Prop :=
  ∀ (s t : State) (x y : Reg) (n : Rows), x ≠ 15 → y ≠ 15 →
    (n.val = 0 ∨ s.I.toNat + n.val - 1 ≤ 0xFFF) → exec (.opDXYN x y n) s = .next t →
    ∃ u, exec (.opDXYN x y n) t = .next u ∧ u.gfx = s.gfx ∧
      ((∃ k, s.spriteCovers x y n k = true ∧ s.gfx.cell k = false) → u.readV 15 = 1) ∧
      ((∀ k, s.spriteCovers x y n k = true → s.gfx.cell k = true) → u.readV 15 = 0)

/-! ## Keys and timers (45_keys_timers.md) -/

/-- EX9E and EXA1 skip when the key named by V[X] is pressed, or not pressed, and change nothing but pc; with V[X] > 15 each
is fatal (the spec's decision D9). A completed instruction leaves mode Running, which the model sets within exec (assumption
5). -/
def Obligations.KeySkipsTestTheNamedKey : Prop :=
  ∀ (s : State) (x : Reg),
    (∀ k : Fin 16, (s.readV x).toNat = k.val →
      goesTo (.opEX9E x) s (if s.keys[k] = true then s.pc + 4 else s.pc + 2) ∧
      goesTo (.opEXA1 x) s (if s.keys[k] = false then s.pc + 4 else s.pc + 2)) ∧
    (15 < (s.readV x).toNat →
      fatalWith (.opEX9E x) s .keyIndexOutOfRange ∧ fatalWith (.opEXA1 x) s .keyIndexOutOfRange)

/-- R332: FX07 writes DT to V[X], pc and nothing else, and at the end of its Step DT is one less than the value read, unless
it was 0. A completed instruction leaves mode Running, which the model sets within exec (assumption 5). -/
def Obligations.DelayTimerIsReadBeforeItsDecrement : Prop :=
  (∀ (s : State) (x : Reg), writesV (.opFX07 x) s x s.DT) ∧
  (∀ (s : State) (x : Reg), s.mode.isHalted = false → s.nextInstr = some (.opFX07 x) →
    ∃ t, step s = .next t ∧ t.readV x = s.DT ∧ t.DT.toNat = s.DT.toNat - 1) ∧
  (encodedBy 0xF007 0xF0FF fun i => ∃ x, i = .opFX07 x)

/-- R335: FX15 writes V[X] to DT, pc and nothing else, and the timer step of the same Step then takes 1 off it. A completed
instruction leaves mode Running, which the model sets within exec (assumption 5). -/
def Obligations.DelayTimerWriteIsCountedDownInItsStep : Prop :=
  (∀ (s : State) (x : Reg), ∃ t, exec (.opFX15 x) s = .next t ∧ t.DT = s.readV x ∧ t.pc = s.pc + 2 ∧
    t.mode = .running ∧ changesOnly s t [.DT, .pc, .mode]) ∧
  (∀ (s : State) (x : Reg), s.mode.isHalted = false → s.nextInstr = some (.opFX15 x) →
    ∃ t, step s = .next t ∧ t.DT.toNat = (s.readV x).toNat - 1) ∧
  (encodedBy 0xF015 0xF0FF fun i => ∃ x, i = .opFX15 x)

/-- FX18 writes V[X] to ST, pc and nothing else; the timer step of the same Step then takes 1 off it, and beeps in that Step
exactly when V[X] is 1, so not when FX18 writes 0 (the spec's decision D12). A completed instruction leaves mode Running,
which the model sets within exec (assumption 5). -/
def Obligations.SoundTimerWriteMayBeepInItsStep : Prop :=
  (∀ (s : State) (x : Reg), ∃ t, exec (.opFX18 x) s = .next t ∧ t.ST = s.readV x ∧ t.pc = s.pc + 2 ∧
    t.mode = .running ∧ changesOnly s t [.ST, .pc, .mode]) ∧
  (∀ (s : State) (x : Reg), s.mode.isHalted = false → s.nextInstr = some (.opFX18 x) →
    ∃ t, step s = .next t ∧ t.ST.toNat = (s.readV x).toNat - 1 ∧ (t.beeped = true ↔ s.readV x = 1)) ∧
  (encodedBy 0xF018 0xF0FF fun i => ∃ x, i = .opFX18 x)

/-- FX0A: with a key pressed it completes with the index of a pressed key in V[X], a free choice among them; with none
pressed it waits, pc and everything but mode unchanged (the spec's decision D10, assumption 3). A completed instruction
leaves mode Running, which the model sets within exec (assumption 5). -/
def Obligations.WaitForKeyReportsAPressedKey : Prop :=
  ∀ (s : State) (x : Reg),
    ((∃ k : Fin 16, s.keys[k] = true) → ∃ t, exec (.opFX0A x) s = .next t ∧
      (∃ k : Fin 16, s.keys[k] = true ∧ (t.readV x).toNat = k.val) ∧ t.draws = s.draws + 1 ∧
      t.pc = s.pc + 2 ∧ t.mode = .running ∧ changesOnly s t [.V x, .pc, .mode, .draws]) ∧
    ((∀ k : Fin 16, s.keys[k] = false) → ∃ t, exec (.opFX0A x) s = .next t ∧
      t.mode = .awaitingKey x ∧ changesOnly s t [.mode])

/-! ## Reset, load and the whole machine -/

/-- Reset from any state: the glyph table at 0x000-0x04F and 0 from 0x050 on, V, I, stack, sp, timers and gfx 0, pc 0x200,
drawFlag false, mode Running; keys are left as they were (70_reset_and_hazards.md section 1; keys and glyphs are decision
D14). -/
def Obligations.ResetRestoresTheListedValues : Prop :=
  ∀ s : State, let t := resetTx s
    (∀ a : Fin 80, t.memRead a.val = s.glyphs[a]) ∧ (∀ a, 0x50 ≤ a → t.memRead a = 0) ∧
    (∀ r, t.readV r = 0) ∧ (∀ j : Fin 16, t.stack[j] = 0) ∧ t.I = 0 ∧ t.pc = 0x200 ∧ t.sp.val = 0 ∧
    t.DT = 0 ∧ t.ST = 0 ∧ (∀ k, t.gfx.cell k = false) ∧ t.drawFlag = false ∧ t.mode = .running ∧ t.keys = s.keys ∧
    t.glyphs = s.glyphs

/-- Reset twice is Reset once, and Reset is the only transaction that leaves Halted (70_reset_and_hazards.md section 1; that a
fatal error halts is decision D2, that Load does not leave it D24). -/
def Obligations.ResetIsIdempotentAndAloneLeavesHalted : Prop :=
  (∀ s : State, resetTx (resetTx s) = resetTx s) ∧
  (∀ (s t : State) (f : FatalRecord) (tx : Transaction), s.mode = .halted f → applyTx s tx = .next t →
    t.mode ≠ .halted f → tx = .reset)

/-- R406, R447: a Load longer than 3584 bytes fails with ProgramTooLarge and changes nothing; a Load of 3584 bytes is
accepted and fills 0x200-0xFFF exactly. -/
def Obligations.OversizedLoadChangesNothing : Prop :=
  ∀ (s : State) (bytes : List Byte),
    (3584 < bytes.length → loadTx s bytes = (s, .programTooLarge)) ∧
    (bytes.length = 3584 → (loadTx s bytes).2 = .ok ∧
      ∀ a, 0x200 ≤ a → a ≤ 0xFFF → some ((loadTx s bytes).1.memRead a) = bytes[a - 0x200]?)

/-- A Load of at most 3584 bytes puts them at 0x200 on and changes nothing else, in every mode (70_reset_and_hazards.md section
2; the mode is decision D24). -/
def Obligations.LoadCopiesTheProgram : Prop :=
  ∀ (s : State) (bytes : List Byte), bytes.length ≤ 3584 →
    (loadTx s bytes).2 = .ok ∧
    (∀ k, k < bytes.length → some ((loadTx s bytes).1.memRead (0x200 + k)) = bytes[k]?) ∧
    changesOnly s (loadTx s bytes).1 ((List.range bytes.length).map fun k => .memory (0x200 + k))

/-- The invariants of 10_state.md section 8, with memory in canonical form, are kept by every Step, from every state that has
them: memory canonical and inside 0x000-0xFFF, I at most 0xFFF, pc at most 0x10FE, and every slot in use at most 0xFFE. -/
def Obligations.InvariantKeptByEveryStep : Prop :=
  ∀ s t : State, s.inv → step s = .next t → t.inv

/-- The same invariants are kept by every transaction of the host, each of which answers a next state. -/
def Obligations.InvariantKeptByEveryTransaction : Prop :=
  ∀ (s : State) (tx : Transaction), s.inv → (applyTx s tx).safe

/-- The invariants hold after Construct with any GLYPH_TABLE, and at the machine's reset state. -/
def Obligations.InvariantHoldsAfterConstruct : Prop :=
  (∀ g : GlyphTable, (construct g).inv) ∧ State.reset.inv

/-- Who writes what (the access table of 10_state.md section 8, which leaves pc out): in one Step, memory changes only under
FX33 and FX55, I only under ANNN, FX1E and FX29, a stack slot only under 2NNN, sp only under 2NNN and 00EE, the framebuffer
only under 00E0 and DXYN, drawFlag only under those and only to true; a register only as the X of an instruction that writes
V[X], among FX65's V0..VX, or as the VF of a flag-writing instruction; DT only under FX15 or by the timer step's one count
down, ST only under FX18 or by that count; mode only to AwaitingKey(X) by FX0A, to Halted by a fatal error (decision D2), or
to Running by a Step that completes or reports (40_cycle.md section 5, the table's row does not name it); keys never. The
parameter GLYPH_TABLE, the model's own field (assumption 1), never changes either; the writable bytes at 0x000-0x04F are
memory. -/
def Obligations.OnlyTheListedInstructionsWrite : Prop :=
  ∀ s t : State, step s = .next t →
    (t.mem ≠ s.mem → ∃ x, s.nextInstr = some (.opFX33 x) ∨ s.nextInstr = some (.opFX55 x)) ∧
    (t.I ≠ s.I → (∃ nnn, s.nextInstr = some (.opANNN nnn)) ∨
      ∃ x, s.nextInstr = some (.opFX1E x) ∨ s.nextInstr = some (.opFX29 x)) ∧
    (t.stack ≠ s.stack → ∃ nnn, s.nextInstr = some (.op2NNN nnn)) ∧
    (t.sp ≠ s.sp → s.nextInstr = some .op00EE ∨ ∃ nnn, s.nextInstr = some (.op2NNN nnn)) ∧
    (t.gfx ≠ s.gfx → s.nextInstr = some .op00E0 ∨ ∃ x y n, s.nextInstr = some (.opDXYN x y n)) ∧
    (t.drawFlag ≠ s.drawFlag → t.drawFlag = true ∧
      (s.nextInstr = some .op00E0 ∨ ∃ x y n, s.nextInstr = some (.opDXYN x y n))) ∧
    (∀ r : Reg, t.readV r ≠ s.readV r →
      (∃ y nn, s.nextInstr ∈ ([.op6XNN r nn, .op7XNN r nn, .op8XY0 r y, .op8XY1 r y, .op8XY2 r y, .op8XY3 r y,
        .op8XY4 r y, .op8XY5 r y, .op8XY6 r y, .op8XY7 r y, .op8XYE r y, .opCXNN r nn, .opFX07 r,
        .opFX0A r].map some)) ∨
      (∃ x, r ≤ x ∧ s.nextInstr = some (.opFX65 x)) ∨
      (r = 15 ∧ ∃ x y n, s.nextInstr ∈ ([.op8XY4 x y, .op8XY5 x y, .op8XY6 x y, .op8XY7 x y, .op8XYE x y,
        .opDXYN x y n].map some))) ∧
    (t.DT ≠ s.DT → (∃ x, s.nextInstr = some (.opFX15 x)) ∨ t.DT.toNat + 1 = s.DT.toNat) ∧
    (t.ST ≠ s.ST → (∃ x, s.nextInstr = some (.opFX18 x)) ∨ t.ST.toNat + 1 = s.ST.toNat) ∧
    (t.mode ≠ s.mode →
      (t.mode = .running ∧ ∃ b, t.out = some ⟨.ok, b⟩ ∨ ∃ w, s.fetch = some w ∧ t.out = some ⟨.unknownOpcode w, b⟩) ∨
      (∃ x b, s.nextInstr = some (.opFX0A x) ∧ t.mode = .awaitingKey x ∧ t.out = some ⟨.waiting, b⟩) ∨
      (∃ f, t.mode = .halted f ∧ t.out = some ⟨.fatal f, false⟩)) ∧
    t.keys = s.keys ∧ t.glyphs = s.glyphs

/-- R43: SetKeys writes the 16 key slots and nothing else; no Step writes them; and only EX9E, EXA1 and FX0A read them: two
states that differ in keys alone take the same Step, keys apart, when anything else is next. (Reset, Load and ClearDrawFlag
are not spoken of here: their frames are statements of their own.) -/
def Obligations.KeysAreReadOnlyByKeyInstructions : Prop :=
  (∀ (s : State) (k : Vector Bool 16), (setKeysTx s k).keys = k ∧ changesOnly s (setKeysTx s k) [.keys]) ∧
  (∀ s t : State, step s = .next t → t.keys = s.keys) ∧
  (∀ (s t : State) (k : Vector Bool 16),
    (∀ x, s.nextInstr ∉ [some (.opEX9E x), some (.opEXA1 x), some (.opFX0A x)]) → step s = .next t →
    step { s with keys := k } = .next { t with keys := k })

/-- What a Step returned is an output, not stored state (10_state.md section 6): the model's own field `out` has no influence on
any Step (assumption 4). -/
def Obligations.OutputsDoNotInfluenceSteps : Prop :=
  ∀ (s : State) (o : Option StepOutput), step { s with out := o } = step s
end

