-- ==== Sys2Proof/Laws/Decode.lean ====
section
/-! SUPPORT. Words, bytes and fields as numbers. -/

namespace Sys2Proof

theorem wordOfBytes_toNat (high low : Byte) : (wordOfBytes high low).toNat = high.toNat * 256 + low.toNat := by
  have h1 := high.isLt
  have h2 := low.isLt
  simp only [wordOfBytes, BitVec.toNat_or, BitVec.toNat_shiftLeft, BitVec.toNat_setWidth]
  rw [Nat.mod_eq_of_lt (a := high.toNat) (by omega), Nat.mod_eq_of_lt (a := low.toNat) (by omega),
    Nat.shiftLeft_eq, Nat.mod_eq_of_lt (by omega), ← Nat.shiftLeft_eq, ← Nat.shiftLeft_add_eq_or_of_lt (by omega),
    Nat.shiftLeft_eq]

theorem highByte_toNat (w : Word) : (highByte w).toNat = w.toNat / 256 := by
  have := w.isLt
  simp [highByte, bits]
  omega

theorem lowByte_toNat (w : Word) : (lowByte w).toNat = w.toNat % 256 := by
  simp [lowByte, bits]

/-- A word split into its bytes and put together again is the word (R73). -/
@[simp] theorem wordOfBytes_split (w : Word) : wordOfBytes (highByte w) (lowByte w) = w := by
  apply BitVec.eq_of_toNat_eq
  rw [wordOfBytes_toNat, highByte_toNat, lowByte_toNat]
  omega

/-- Bytes put together and split again are the bytes (R73). -/
@[simp] theorem highByte_join (high low : Byte) : highByte (wordOfBytes high low) = high := by
  apply BitVec.eq_of_toNat_eq
  have := low.isLt
  rw [highByte_toNat, wordOfBytes_toNat]
  omega

@[simp] theorem lowByte_join (high low : Byte) : lowByte (wordOfBytes high low) = low := by
  apply BitVec.eq_of_toNat_eq
  have := low.isLt
  rw [lowByte_toNat, wordOfBytes_toNat]
  omega

/-! ## Encoded words as numbers -/

theorem encodeA_toNat (op : Nat) (nnn : Addr) (h : op < 16) : (encodeA op nnn).toNat = op * 4096 + nnn.toNat := by
  have := nnn.isLt
  simp only [encodeA, BitVec.toNat_ofNat]
  omega

theorem encodeXB_toNat (op : Nat) (x : Reg) (nn : Byte) (h : op < 16) :
    (encodeXB op x nn).toNat = op * 4096 + x.val * 256 + nn.toNat := by
  have := nn.isLt
  simp only [encodeXB, BitVec.toNat_ofNat]
  omega

theorem encodeXY_toNat (op : Nat) (x y : Reg) (low : Nat) (h : op < 16) (hl : low < 16) :
    (encodeXY op x y low).toNat = op * 4096 + x.val * 256 + y.val * 16 + low := by
  simp only [encodeXY, BitVec.toNat_ofNat]
  omega

theorem encodeXS_toNat (op : Nat) (x : Reg) (sub : Nat) (h : op < 16) (hs : sub < 256) :
    (encodeXS op x sub).toNat = op * 4096 + x.val * 256 + sub := by
  simp only [encodeXS, BitVec.toNat_ofNat]
  omega

/-! ## Fields as numbers -/

theorem family_eq (w : Word) : family w = w.toNat / 4096 := by
  have := w.isLt
  simp [family, bits]
  omega

theorem bits_low_nibble (w : Word) : bits w 3 0 = w.toNat % 16 := by
  simp [bits]

theorem bits_low_byte (w : Word) : bits w 7 0 = w.toNat % 256 := by
  simp [bits]

theorem fieldX_val (w : Word) : (fieldX w).val = w.toNat / 256 % 16 := by
  simp [fieldX, bits]

theorem fieldY_val (w : Word) : (fieldY w).val = w.toNat / 16 % 16 := by
  simp [fieldY, bits]

theorem fieldN_val (w : Word) : (fieldN w).val = w.toNat % 16 := by
  simp [fieldN, bits]

theorem fieldNN_toNat (w : Word) : (fieldNN w).toNat = w.toNat % 256 := by
  simp [fieldNN, bits]

theorem fieldNNN_toNat (w : Word) : (fieldNNN w).toNat = w.toNat % 4096 := by
  simp [fieldNNN, bits]

/-! ## Fields of an encoded word -/

theorem fieldX_of {w : Word} {x : Reg} (h : w.toNat / 256 % 16 = x.val) : fieldX w = x :=
  Fin.ext ((fieldX_val w).trans h)

theorem fieldY_of {w : Word} {y : Reg} (h : w.toNat / 16 % 16 = y.val) : fieldY w = y :=
  Fin.ext ((fieldY_val w).trans h)

theorem fieldN_of {w : Word} {n : Rows} (h : w.toNat % 16 = n.val) : fieldN w = n :=
  Fin.ext ((fieldN_val w).trans h)

theorem fieldNN_of {w : Word} {nn : Byte} (h : w.toNat % 256 = nn.toNat) : fieldNN w = nn :=
  BitVec.eq_of_toNat_eq ((fieldNN_toNat w).trans h)

theorem fieldNNN_of {w : Word} {nnn : Addr} (h : w.toNat % 4096 = nnn.toNat) : fieldNNN w = nnn :=
  BitVec.eq_of_toNat_eq ((fieldNNN_toNat w).trans h)

/-! ## One lemma per format -/

theorem family_of_nat {w : Word} {op : Nat} (h : w.toNat / 4096 = op) : family w = op := (family_eq w).trans h

/-- The fields of a format A word. -/
theorem formatA (op : Nat) (nnn : Addr) (h : op < 16) :
    family (encodeA op nnn) = op ∧ fieldNNN (encodeA op nnn) = nnn := by
  have e := encodeA_toNat op nnn h
  have := nnn.isLt
  exact ⟨family_of_nat (by omega), fieldNNN_of (by omega)⟩

/-- The fields of a format XB word. -/
theorem formatXB (op : Nat) (x : Reg) (nn : Byte) (h : op < 16) :
    family (encodeXB op x nn) = op ∧ fieldX (encodeXB op x nn) = x ∧ fieldNN (encodeXB op x nn) = nn := by
  have e := encodeXB_toNat op x nn h
  have := nn.isLt
  exact ⟨family_of_nat (by omega), fieldX_of (by omega), fieldNN_of (by omega)⟩

/-- The fields of a format XY or XYN word. -/
theorem formatXY (op : Nat) (x y : Reg) (low : Nat) (h : op < 16) (hl : low < 16) :
    family (encodeXY op x y low) = op ∧ fieldX (encodeXY op x y low) = x ∧ fieldY (encodeXY op x y low) = y ∧
      bits (encodeXY op x y low) 3 0 = low := by
  have e := encodeXY_toNat op x y low h hl
  refine ⟨family_of_nat (by omega), fieldX_of (by omega), fieldY_of (by omega), ?_⟩
  rw [bits_low_nibble]
  omega

/-- The fields of a format XS word. -/
theorem formatXS (op : Nat) (x : Reg) (sub : Nat) (h : op < 16) (hs : sub < 256) :
    family (encodeXS op x sub) = op ∧ fieldX (encodeXS op x sub) = x ∧ bits (encodeXS op x sub) 7 0 = sub := by
  have e := encodeXS_toNat op x sub h hs
  refine ⟨family_of_nat (by omega), fieldX_of (by omega), ?_⟩
  rw [bits_low_byte]
  omega

/-! ## The masks of the opcode map as numbers (R110) -/

theorem and_F000_toNat (w : Word) : (w &&& 0xF000#16).toNat = w.toNat / 4096 * 4096 := by
  have e : w &&& 0xF000#16 = (w >>> 12) <<< 12 := by
    apply BitVec.eq_of_getLsbD_eq
    intro i hi
    interval_cases i <;> simp
  have := w.isLt
  rw [e]
  simp only [BitVec.toNat_shiftLeft, BitVec.toNat_ushiftRight, Nat.shiftRight_eq_div_pow, Nat.shiftLeft_eq]
  omega

theorem and_000F_toNat (w : Word) : (w &&& 0x000F#16).toNat = w.toNat % 16 := by
  rw [BitVec.toNat_and]
  exact Nat.and_two_pow_sub_one_eq_mod w.toNat 4

theorem and_00FF_toNat (w : Word) : (w &&& 0x00FF#16).toNat = w.toNat % 256 := by
  rw [BitVec.toNat_and]
  exact Nat.and_two_pow_sub_one_eq_mod w.toNat 8

/-- A mask with a high and a low part selects both parts, and they do not meet. -/
theorem and_split_toNat (w high low mask : Word) (h : high ||| low = mask) (h0 : high &&& low = 0#16) :
    (w &&& mask).toNat = ((w &&& high).toNat + (w &&& low).toNat) % 65536 := by
  have e : w &&& mask = (w &&& high) + (w &&& low) := by
    rw [BitVec.add_eq_or_of_and_eq_zero, ← h]
    · apply BitVec.eq_of_getLsbD_eq
      intro i hi
      simp [Bool.and_or_distrib_left]
    · apply BitVec.eq_of_getLsbD_eq
      intro i hi
      have := congrArg (fun v => v.getLsbD i) h0
      simp only [BitVec.getLsbD_and, BitVec.getLsbD_zero] at this ⊢
      revert this
      cases w.getLsbD i <;> cases high.getLsbD i <;> cases low.getLsbD i <;> decide
  rw [e, BitVec.toNat_add]

theorem and_F00F_toNat (w : Word) : (w &&& 0xF00F#16).toNat = w.toNat / 4096 * 4096 + w.toNat % 16 := by
  have := w.isLt
  rw [and_split_toNat w 0xF000#16 0x000F#16 0xF00F#16 (by decide) (by decide), and_F000_toNat, and_000F_toNat]
  omega

theorem and_F0FF_toNat (w : Word) : (w &&& 0xF0FF#16).toNat = w.toNat / 4096 * 4096 + w.toNat % 256 := by
  have := w.isLt
  rw [and_split_toNat w 0xF000#16 0x00FF#16 0xF0FF#16 (by decide) (by decide), and_F000_toNat, and_00FF_toNat]
  omega

@[simp] theorem and_FFFF (w : Word) : w &&& 0xFFFF#16 = w := BitVec.and_allOnes

/-- An unknown word is reported as itself (R104). -/
theorem decodeWord_unknown {w u : Word} (h : decodeWord w = .unknown u) : u = w := by
  unfold decodeWord decodeFamily0 decodeFamily8 decodeLowZero decodeFamilyE decodeFamilyF at h
  repeat' split at h
  all_goals cases h
  all_goals rfl

end Sys2Proof
end

