-- ==== Sys2Proof/Laws/State.lean ====
section
/-! SUPPORT. One lemma per field per update of the state, true by rfl, so that no proof unfolds a record update. -/

namespace Sys2Proof.Machine

variable (s : State)

/-! ## memWrite -/

@[simp] theorem memWrite_mem (a : Nat) (b : Byte) : (s.memWrite a b).mem = Memory.write s.glyphs s.mem a b := rfl
@[simp] theorem memWrite_glyphs (a : Nat) (b : Byte) : (s.memWrite a b).glyphs = s.glyphs := rfl
@[simp] theorem memWrite_V (a : Nat) (b : Byte) : (s.memWrite a b).V = s.V := rfl
@[simp] theorem memWrite_I (a : Nat) (b : Byte) : (s.memWrite a b).I = s.I := rfl
@[simp] theorem memWrite_pc (a : Nat) (b : Byte) : (s.memWrite a b).pc = s.pc := rfl
@[simp] theorem memWrite_stack (a : Nat) (b : Byte) : (s.memWrite a b).stack = s.stack := rfl
@[simp] theorem memWrite_sp (a : Nat) (b : Byte) : (s.memWrite a b).sp = s.sp := rfl
@[simp] theorem memWrite_DT (a : Nat) (b : Byte) : (s.memWrite a b).DT = s.DT := rfl
@[simp] theorem memWrite_ST (a : Nat) (b : Byte) : (s.memWrite a b).ST = s.ST := rfl
@[simp] theorem memWrite_gfx (a : Nat) (b : Byte) : (s.memWrite a b).gfx = s.gfx := rfl
@[simp] theorem memWrite_keys (a : Nat) (b : Byte) : (s.memWrite a b).keys = s.keys := rfl
@[simp] theorem memWrite_drawFlag (a : Nat) (b : Byte) : (s.memWrite a b).drawFlag = s.drawFlag := rfl
@[simp] theorem memWrite_mode (a : Nat) (b : Byte) : (s.memWrite a b).mode = s.mode := rfl
@[simp] theorem memWrite_draws (a : Nat) (b : Byte) : (s.memWrite a b).draws = s.draws := rfl
@[simp] theorem memWrite_out (a : Nat) (b : Byte) : (s.memWrite a b).out = s.out := rfl
@[simp] theorem memWrite_readV (a : Nat) (b : Byte) (q : Reg) : (s.memWrite a b).readV q = s.readV q := rfl

/-! ## writeV -/

@[simp] theorem writeV_mem (r : Reg) (b : Byte) : (s.writeV r b).mem = s.mem := rfl
@[simp] theorem writeV_glyphs (r : Reg) (b : Byte) : (s.writeV r b).glyphs = s.glyphs := rfl
@[simp] theorem writeV_V (r : Reg) (b : Byte) : (s.writeV r b).V = s.V.set r b := rfl
@[simp] theorem writeV_I (r : Reg) (b : Byte) : (s.writeV r b).I = s.I := rfl
@[simp] theorem writeV_pc (r : Reg) (b : Byte) : (s.writeV r b).pc = s.pc := rfl
@[simp] theorem writeV_stack (r : Reg) (b : Byte) : (s.writeV r b).stack = s.stack := rfl
@[simp] theorem writeV_sp (r : Reg) (b : Byte) : (s.writeV r b).sp = s.sp := rfl
@[simp] theorem writeV_DT (r : Reg) (b : Byte) : (s.writeV r b).DT = s.DT := rfl
@[simp] theorem writeV_ST (r : Reg) (b : Byte) : (s.writeV r b).ST = s.ST := rfl
@[simp] theorem writeV_gfx (r : Reg) (b : Byte) : (s.writeV r b).gfx = s.gfx := rfl
@[simp] theorem writeV_keys (r : Reg) (b : Byte) : (s.writeV r b).keys = s.keys := rfl
@[simp] theorem writeV_drawFlag (r : Reg) (b : Byte) : (s.writeV r b).drawFlag = s.drawFlag := rfl
@[simp] theorem writeV_mode (r : Reg) (b : Byte) : (s.writeV r b).mode = s.mode := rfl
@[simp] theorem writeV_draws (r : Reg) (b : Byte) : (s.writeV r b).draws = s.draws := rfl
@[simp] theorem writeV_out (r : Reg) (b : Byte) : (s.writeV r b).out = s.out := rfl
@[simp] theorem writeV_memRead (r : Reg) (b : Byte) (a : Nat) : (s.writeV r b).memRead a = s.memRead a := rfl

/-! ## writeF -/

@[simp] theorem writeF_mem (b : Byte) : (s.writeF b).mem = s.mem := rfl
@[simp] theorem writeF_glyphs (b : Byte) : (s.writeF b).glyphs = s.glyphs := rfl
@[simp] theorem writeF_V (b : Byte) : (s.writeF b).V = s.V.set 15 b := rfl
@[simp] theorem writeF_I (b : Byte) : (s.writeF b).I = s.I := rfl
@[simp] theorem writeF_pc (b : Byte) : (s.writeF b).pc = s.pc := rfl
@[simp] theorem writeF_stack (b : Byte) : (s.writeF b).stack = s.stack := rfl
@[simp] theorem writeF_sp (b : Byte) : (s.writeF b).sp = s.sp := rfl
@[simp] theorem writeF_DT (b : Byte) : (s.writeF b).DT = s.DT := rfl
@[simp] theorem writeF_ST (b : Byte) : (s.writeF b).ST = s.ST := rfl
@[simp] theorem writeF_gfx (b : Byte) : (s.writeF b).gfx = s.gfx := rfl
@[simp] theorem writeF_keys (b : Byte) : (s.writeF b).keys = s.keys := rfl
@[simp] theorem writeF_drawFlag (b : Byte) : (s.writeF b).drawFlag = s.drawFlag := rfl
@[simp] theorem writeF_mode (b : Byte) : (s.writeF b).mode = s.mode := rfl
@[simp] theorem writeF_draws (b : Byte) : (s.writeF b).draws = s.draws := rfl
@[simp] theorem writeF_out (b : Byte) : (s.writeF b).out = s.out := rfl
@[simp] theorem writeF_memRead (b : Byte) (a : Nat) : (s.writeF b).memRead a = s.memRead a := rfl

/-! ## writeI -/

@[simp] theorem writeI_mem (w : Word) : (s.writeI w).mem = s.mem := rfl
@[simp] theorem writeI_glyphs (w : Word) : (s.writeI w).glyphs = s.glyphs := rfl
@[simp] theorem writeI_V (w : Word) : (s.writeI w).V = s.V := rfl
@[simp] theorem writeI_I (w : Word) : (s.writeI w).I = w := rfl
@[simp] theorem writeI_pc (w : Word) : (s.writeI w).pc = s.pc := rfl
@[simp] theorem writeI_stack (w : Word) : (s.writeI w).stack = s.stack := rfl
@[simp] theorem writeI_sp (w : Word) : (s.writeI w).sp = s.sp := rfl
@[simp] theorem writeI_DT (w : Word) : (s.writeI w).DT = s.DT := rfl
@[simp] theorem writeI_ST (w : Word) : (s.writeI w).ST = s.ST := rfl
@[simp] theorem writeI_gfx (w : Word) : (s.writeI w).gfx = s.gfx := rfl
@[simp] theorem writeI_keys (w : Word) : (s.writeI w).keys = s.keys := rfl
@[simp] theorem writeI_drawFlag (w : Word) : (s.writeI w).drawFlag = s.drawFlag := rfl
@[simp] theorem writeI_mode (w : Word) : (s.writeI w).mode = s.mode := rfl
@[simp] theorem writeI_draws (w : Word) : (s.writeI w).draws = s.draws := rfl
@[simp] theorem writeI_out (w : Word) : (s.writeI w).out = s.out := rfl
@[simp] theorem writeI_memRead (w : Word) (a : Nat) : (s.writeI w).memRead a = s.memRead a := rfl
@[simp] theorem writeI_readV (w : Word) (q : Reg) : (s.writeI w).readV q = s.readV q := rfl

/-! ## pushPc -/

@[simp] theorem pushPc_mem (h : s.sp.val < 16) : (s.pushPc h).mem = s.mem := rfl
@[simp] theorem pushPc_glyphs (h : s.sp.val < 16) : (s.pushPc h).glyphs = s.glyphs := rfl
@[simp] theorem pushPc_V (h : s.sp.val < 16) : (s.pushPc h).V = s.V := rfl
@[simp] theorem pushPc_I (h : s.sp.val < 16) : (s.pushPc h).I = s.I := rfl
@[simp] theorem pushPc_pc (h : s.sp.val < 16) : (s.pushPc h).pc = s.pc := rfl
@[simp] theorem pushPc_stack (h : s.sp.val < 16) : (s.pushPc h).stack = s.stack.set s.sp.val s.pc h := rfl
@[simp] theorem pushPc_sp (h : s.sp.val < 16) : (s.pushPc h).sp = ⟨s.sp.val + 1, by omega⟩ := rfl
@[simp] theorem pushPc_DT (h : s.sp.val < 16) : (s.pushPc h).DT = s.DT := rfl
@[simp] theorem pushPc_ST (h : s.sp.val < 16) : (s.pushPc h).ST = s.ST := rfl
@[simp] theorem pushPc_gfx (h : s.sp.val < 16) : (s.pushPc h).gfx = s.gfx := rfl
@[simp] theorem pushPc_keys (h : s.sp.val < 16) : (s.pushPc h).keys = s.keys := rfl
@[simp] theorem pushPc_drawFlag (h : s.sp.val < 16) : (s.pushPc h).drawFlag = s.drawFlag := rfl
@[simp] theorem pushPc_mode (h : s.sp.val < 16) : (s.pushPc h).mode = s.mode := rfl
@[simp] theorem pushPc_draws (h : s.sp.val < 16) : (s.pushPc h).draws = s.draws := rfl
@[simp] theorem pushPc_out (h : s.sp.val < 16) : (s.pushPc h).out = s.out := rfl
@[simp] theorem pushPc_memRead (h : s.sp.val < 16) (a : Nat) : (s.pushPc h).memRead a = s.memRead a := rfl
@[simp] theorem pushPc_readV (h : s.sp.val < 16) (q : Reg) : (s.pushPc h).readV q = s.readV q := rfl

/-! ## dropTop -/

@[simp] theorem dropTop_mem : (s.dropTop).mem = s.mem := rfl
@[simp] theorem dropTop_glyphs : (s.dropTop).glyphs = s.glyphs := rfl
@[simp] theorem dropTop_V : (s.dropTop).V = s.V := rfl
@[simp] theorem dropTop_I : (s.dropTop).I = s.I := rfl
@[simp] theorem dropTop_pc : (s.dropTop).pc = s.pc := rfl
@[simp] theorem dropTop_stack : (s.dropTop).stack = s.stack := rfl
@[simp] theorem dropTop_sp : (s.dropTop).sp = ⟨s.sp.val - 1, by omega⟩ := rfl
@[simp] theorem dropTop_DT : (s.dropTop).DT = s.DT := rfl
@[simp] theorem dropTop_ST : (s.dropTop).ST = s.ST := rfl
@[simp] theorem dropTop_gfx : (s.dropTop).gfx = s.gfx := rfl
@[simp] theorem dropTop_keys : (s.dropTop).keys = s.keys := rfl
@[simp] theorem dropTop_drawFlag : (s.dropTop).drawFlag = s.drawFlag := rfl
@[simp] theorem dropTop_mode : (s.dropTop).mode = s.mode := rfl
@[simp] theorem dropTop_draws : (s.dropTop).draws = s.draws := rfl
@[simp] theorem dropTop_out : (s.dropTop).out = s.out := rfl
@[simp] theorem dropTop_memRead (a : Nat) : (s.dropTop).memRead a = s.memRead a := rfl
@[simp] theorem dropTop_readV (q : Reg) : (s.dropTop).readV q = s.readV q := rfl

/-! ## doneAt -/

@[simp] theorem doneAt_mem (w : Word) : (s.doneAt w).mem = s.mem := rfl
@[simp] theorem doneAt_glyphs (w : Word) : (s.doneAt w).glyphs = s.glyphs := rfl
@[simp] theorem doneAt_V (w : Word) : (s.doneAt w).V = s.V := rfl
@[simp] theorem doneAt_I (w : Word) : (s.doneAt w).I = s.I := rfl
@[simp] theorem doneAt_pc (w : Word) : (s.doneAt w).pc = w := rfl
@[simp] theorem doneAt_stack (w : Word) : (s.doneAt w).stack = s.stack := rfl
@[simp] theorem doneAt_sp (w : Word) : (s.doneAt w).sp = s.sp := rfl
@[simp] theorem doneAt_DT (w : Word) : (s.doneAt w).DT = s.DT := rfl
@[simp] theorem doneAt_ST (w : Word) : (s.doneAt w).ST = s.ST := rfl
@[simp] theorem doneAt_gfx (w : Word) : (s.doneAt w).gfx = s.gfx := rfl
@[simp] theorem doneAt_keys (w : Word) : (s.doneAt w).keys = s.keys := rfl
@[simp] theorem doneAt_drawFlag (w : Word) : (s.doneAt w).drawFlag = s.drawFlag := rfl
@[simp] theorem doneAt_mode (w : Word) : (s.doneAt w).mode = .running := rfl
@[simp] theorem doneAt_draws (w : Word) : (s.doneAt w).draws = s.draws := rfl
@[simp] theorem doneAt_out (w : Word) : (s.doneAt w).out = s.out := rfl
@[simp] theorem doneAt_memRead (w : Word) (a : Nat) : (s.doneAt w).memRead a = s.memRead a := rfl
@[simp] theorem doneAt_readV (w : Word) (q : Reg) : (s.doneAt w).readV q = s.readV q := rfl

/-! ## done -/

@[simp] theorem done_mem : (s.done).mem = s.mem := rfl
@[simp] theorem done_glyphs : (s.done).glyphs = s.glyphs := rfl
@[simp] theorem done_V : (s.done).V = s.V := rfl
@[simp] theorem done_I : (s.done).I = s.I := rfl
@[simp] theorem done_pc : (s.done).pc = s.pc + 2 := rfl
@[simp] theorem done_stack : (s.done).stack = s.stack := rfl
@[simp] theorem done_sp : (s.done).sp = s.sp := rfl
@[simp] theorem done_DT : (s.done).DT = s.DT := rfl
@[simp] theorem done_ST : (s.done).ST = s.ST := rfl
@[simp] theorem done_gfx : (s.done).gfx = s.gfx := rfl
@[simp] theorem done_keys : (s.done).keys = s.keys := rfl
@[simp] theorem done_drawFlag : (s.done).drawFlag = s.drawFlag := rfl
@[simp] theorem done_mode : (s.done).mode = .running := rfl
@[simp] theorem done_draws : (s.done).draws = s.draws := rfl
@[simp] theorem done_out : (s.done).out = s.out := rfl
@[simp] theorem done_memRead (a : Nat) : (s.done).memRead a = s.memRead a := rfl
@[simp] theorem done_readV (q : Reg) : (s.done).readV q = s.readV q := rfl

/-! ## doneSkipIf -/

@[simp] theorem doneSkipIf_mem (c : Bool) : (s.doneSkipIf c).mem = s.mem := rfl
@[simp] theorem doneSkipIf_glyphs (c : Bool) : (s.doneSkipIf c).glyphs = s.glyphs := rfl
@[simp] theorem doneSkipIf_V (c : Bool) : (s.doneSkipIf c).V = s.V := rfl
@[simp] theorem doneSkipIf_I (c : Bool) : (s.doneSkipIf c).I = s.I := rfl
@[simp] theorem doneSkipIf_pc (c : Bool) : (s.doneSkipIf c).pc = if c then s.pc + 4 else s.pc + 2 := rfl
@[simp] theorem doneSkipIf_stack (c : Bool) : (s.doneSkipIf c).stack = s.stack := rfl
@[simp] theorem doneSkipIf_sp (c : Bool) : (s.doneSkipIf c).sp = s.sp := rfl
@[simp] theorem doneSkipIf_DT (c : Bool) : (s.doneSkipIf c).DT = s.DT := rfl
@[simp] theorem doneSkipIf_ST (c : Bool) : (s.doneSkipIf c).ST = s.ST := rfl
@[simp] theorem doneSkipIf_gfx (c : Bool) : (s.doneSkipIf c).gfx = s.gfx := rfl
@[simp] theorem doneSkipIf_keys (c : Bool) : (s.doneSkipIf c).keys = s.keys := rfl
@[simp] theorem doneSkipIf_drawFlag (c : Bool) : (s.doneSkipIf c).drawFlag = s.drawFlag := rfl
@[simp] theorem doneSkipIf_mode (c : Bool) : (s.doneSkipIf c).mode = .running := rfl
@[simp] theorem doneSkipIf_draws (c : Bool) : (s.doneSkipIf c).draws = s.draws := rfl
@[simp] theorem doneSkipIf_out (c : Bool) : (s.doneSkipIf c).out = s.out := rfl
@[simp] theorem doneSkipIf_memRead (c : Bool) (a : Nat) : (s.doneSkipIf c).memRead a = s.memRead a := rfl
@[simp] theorem doneSkipIf_readV (c : Bool) (q : Reg) : (s.doneSkipIf c).readV q = s.readV q := rfl

/-! ## wait -/

@[simp] theorem wait_mem (x : Reg) : (s.wait x).mem = s.mem := rfl
@[simp] theorem wait_glyphs (x : Reg) : (s.wait x).glyphs = s.glyphs := rfl
@[simp] theorem wait_V (x : Reg) : (s.wait x).V = s.V := rfl
@[simp] theorem wait_I (x : Reg) : (s.wait x).I = s.I := rfl
@[simp] theorem wait_pc (x : Reg) : (s.wait x).pc = s.pc := rfl
@[simp] theorem wait_stack (x : Reg) : (s.wait x).stack = s.stack := rfl
@[simp] theorem wait_sp (x : Reg) : (s.wait x).sp = s.sp := rfl
@[simp] theorem wait_DT (x : Reg) : (s.wait x).DT = s.DT := rfl
@[simp] theorem wait_ST (x : Reg) : (s.wait x).ST = s.ST := rfl
@[simp] theorem wait_gfx (x : Reg) : (s.wait x).gfx = s.gfx := rfl
@[simp] theorem wait_keys (x : Reg) : (s.wait x).keys = s.keys := rfl
@[simp] theorem wait_drawFlag (x : Reg) : (s.wait x).drawFlag = s.drawFlag := rfl
@[simp] theorem wait_mode (x : Reg) : (s.wait x).mode = .awaitingKey x := rfl
@[simp] theorem wait_draws (x : Reg) : (s.wait x).draws = s.draws := rfl
@[simp] theorem wait_out (x : Reg) : (s.wait x).out = s.out := rfl
@[simp] theorem wait_memRead (x : Reg) (a : Nat) : (s.wait x).memRead a = s.memRead a := rfl
@[simp] theorem wait_readV (x : Reg) (q : Reg) : (s.wait x).readV q = s.readV q := rfl

/-! ## raiseFatal -/

@[simp] theorem raiseFatal_mem (f : FatalReason) (w : Option Word) : (s.raiseFatal f w).mem = s.mem := rfl
@[simp] theorem raiseFatal_glyphs (f : FatalReason) (w : Option Word) : (s.raiseFatal f w).glyphs = s.glyphs := rfl
@[simp] theorem raiseFatal_V (f : FatalReason) (w : Option Word) : (s.raiseFatal f w).V = s.V := rfl
@[simp] theorem raiseFatal_I (f : FatalReason) (w : Option Word) : (s.raiseFatal f w).I = s.I := rfl
@[simp] theorem raiseFatal_pc (f : FatalReason) (w : Option Word) : (s.raiseFatal f w).pc = s.pc := rfl
@[simp] theorem raiseFatal_stack (f : FatalReason) (w : Option Word) : (s.raiseFatal f w).stack = s.stack := rfl
@[simp] theorem raiseFatal_sp (f : FatalReason) (w : Option Word) : (s.raiseFatal f w).sp = s.sp := rfl
@[simp] theorem raiseFatal_DT (f : FatalReason) (w : Option Word) : (s.raiseFatal f w).DT = s.DT := rfl
@[simp] theorem raiseFatal_ST (f : FatalReason) (w : Option Word) : (s.raiseFatal f w).ST = s.ST := rfl
@[simp] theorem raiseFatal_gfx (f : FatalReason) (w : Option Word) : (s.raiseFatal f w).gfx = s.gfx := rfl
@[simp] theorem raiseFatal_keys (f : FatalReason) (w : Option Word) : (s.raiseFatal f w).keys = s.keys := rfl
@[simp] theorem raiseFatal_drawFlag (f : FatalReason) (w : Option Word) : (s.raiseFatal f w).drawFlag = s.drawFlag := rfl
@[simp] theorem raiseFatal_mode (f : FatalReason) (w : Option Word) : (s.raiseFatal f w).mode = .halted ⟨f, s.pc, w⟩ := rfl
@[simp] theorem raiseFatal_draws (f : FatalReason) (w : Option Word) : (s.raiseFatal f w).draws = s.draws := rfl
@[simp] theorem raiseFatal_out (f : FatalReason) (w : Option Word) : (s.raiseFatal f w).out = s.out := rfl
@[simp] theorem raiseFatal_memRead (f : FatalReason) (w : Option Word) (a : Nat) : (s.raiseFatal f w).memRead a = s.memRead a := rfl
@[simp] theorem raiseFatal_readV (f : FatalReason) (w : Option Word) (q : Reg) : (s.raiseFatal f w).readV q = s.readV q := rfl

/-! ## countDraw -/

@[simp] theorem countDraw_mem : (s.countDraw).mem = s.mem := rfl
@[simp] theorem countDraw_glyphs : (s.countDraw).glyphs = s.glyphs := rfl
@[simp] theorem countDraw_V : (s.countDraw).V = s.V := rfl
@[simp] theorem countDraw_I : (s.countDraw).I = s.I := rfl
@[simp] theorem countDraw_pc : (s.countDraw).pc = s.pc := rfl
@[simp] theorem countDraw_stack : (s.countDraw).stack = s.stack := rfl
@[simp] theorem countDraw_sp : (s.countDraw).sp = s.sp := rfl
@[simp] theorem countDraw_DT : (s.countDraw).DT = s.DT := rfl
@[simp] theorem countDraw_ST : (s.countDraw).ST = s.ST := rfl
@[simp] theorem countDraw_gfx : (s.countDraw).gfx = s.gfx := rfl
@[simp] theorem countDraw_keys : (s.countDraw).keys = s.keys := rfl
@[simp] theorem countDraw_drawFlag : (s.countDraw).drawFlag = s.drawFlag := rfl
@[simp] theorem countDraw_mode : (s.countDraw).mode = s.mode := rfl
@[simp] theorem countDraw_draws : (s.countDraw).draws = s.draws + 1 := rfl
@[simp] theorem countDraw_out : (s.countDraw).out = s.out := rfl
@[simp] theorem countDraw_memRead (a : Nat) : (s.countDraw).memRead a = s.memRead a := rfl
@[simp] theorem countDraw_readV (q : Reg) : (s.countDraw).readV q = s.readV q := rfl

/-! ## binary -/

@[simp] theorem binary_mem (x y : Reg) (f : Byte → Byte → Byte) : (s.binary x y f).mem = s.mem := rfl
@[simp] theorem binary_glyphs (x y : Reg) (f : Byte → Byte → Byte) : (s.binary x y f).glyphs = s.glyphs := rfl
@[simp] theorem binary_V (x y : Reg) (f : Byte → Byte → Byte) : (s.binary x y f).V = s.V.set x (f (s.readV x) (s.readV y)) := rfl
@[simp] theorem binary_I (x y : Reg) (f : Byte → Byte → Byte) : (s.binary x y f).I = s.I := rfl
@[simp] theorem binary_pc (x y : Reg) (f : Byte → Byte → Byte) : (s.binary x y f).pc = s.pc := rfl
@[simp] theorem binary_stack (x y : Reg) (f : Byte → Byte → Byte) : (s.binary x y f).stack = s.stack := rfl
@[simp] theorem binary_sp (x y : Reg) (f : Byte → Byte → Byte) : (s.binary x y f).sp = s.sp := rfl
@[simp] theorem binary_DT (x y : Reg) (f : Byte → Byte → Byte) : (s.binary x y f).DT = s.DT := rfl
@[simp] theorem binary_ST (x y : Reg) (f : Byte → Byte → Byte) : (s.binary x y f).ST = s.ST := rfl
@[simp] theorem binary_gfx (x y : Reg) (f : Byte → Byte → Byte) : (s.binary x y f).gfx = s.gfx := rfl
@[simp] theorem binary_keys (x y : Reg) (f : Byte → Byte → Byte) : (s.binary x y f).keys = s.keys := rfl
@[simp] theorem binary_drawFlag (x y : Reg) (f : Byte → Byte → Byte) : (s.binary x y f).drawFlag = s.drawFlag := rfl
@[simp] theorem binary_mode (x y : Reg) (f : Byte → Byte → Byte) : (s.binary x y f).mode = s.mode := rfl
@[simp] theorem binary_draws (x y : Reg) (f : Byte → Byte → Byte) : (s.binary x y f).draws = s.draws := rfl
@[simp] theorem binary_out (x y : Reg) (f : Byte → Byte → Byte) : (s.binary x y f).out = s.out := rfl
@[simp] theorem binary_memRead (x y : Reg) (f : Byte → Byte → Byte) (a : Nat) : (s.binary x y f).memRead a = s.memRead a := rfl

/-! ## flagThenResult -/

@[simp] theorem flagThenResult_mem (x y : Reg) (f g : Byte → Byte → Byte) : (s.flagThenResult x y f g).mem = s.mem := rfl
@[simp] theorem flagThenResult_glyphs (x y : Reg) (f g : Byte → Byte → Byte) : (s.flagThenResult x y f g).glyphs = s.glyphs := rfl
@[simp] theorem flagThenResult_I (x y : Reg) (f g : Byte → Byte → Byte) : (s.flagThenResult x y f g).I = s.I := rfl
@[simp] theorem flagThenResult_pc (x y : Reg) (f g : Byte → Byte → Byte) : (s.flagThenResult x y f g).pc = s.pc := rfl
@[simp] theorem flagThenResult_stack (x y : Reg) (f g : Byte → Byte → Byte) : (s.flagThenResult x y f g).stack = s.stack := rfl
@[simp] theorem flagThenResult_sp (x y : Reg) (f g : Byte → Byte → Byte) : (s.flagThenResult x y f g).sp = s.sp := rfl
@[simp] theorem flagThenResult_DT (x y : Reg) (f g : Byte → Byte → Byte) : (s.flagThenResult x y f g).DT = s.DT := rfl
@[simp] theorem flagThenResult_ST (x y : Reg) (f g : Byte → Byte → Byte) : (s.flagThenResult x y f g).ST = s.ST := rfl
@[simp] theorem flagThenResult_gfx (x y : Reg) (f g : Byte → Byte → Byte) : (s.flagThenResult x y f g).gfx = s.gfx := rfl
@[simp] theorem flagThenResult_keys (x y : Reg) (f g : Byte → Byte → Byte) : (s.flagThenResult x y f g).keys = s.keys := rfl
@[simp] theorem flagThenResult_drawFlag (x y : Reg) (f g : Byte → Byte → Byte) : (s.flagThenResult x y f g).drawFlag = s.drawFlag := rfl
@[simp] theorem flagThenResult_mode (x y : Reg) (f g : Byte → Byte → Byte) : (s.flagThenResult x y f g).mode = s.mode := rfl
@[simp] theorem flagThenResult_draws (x y : Reg) (f g : Byte → Byte → Byte) : (s.flagThenResult x y f g).draws = s.draws := rfl
@[simp] theorem flagThenResult_out (x y : Reg) (f g : Byte → Byte → Byte) : (s.flagThenResult x y f g).out = s.out := rfl
@[simp] theorem flagThenResult_memRead (x y : Reg) (f g : Byte → Byte → Byte) (a : Nat) : (s.flagThenResult x y f g).memRead a = s.memRead a := rfl

/-! ## timerStep -/

@[simp] theorem timerStep_mem (st : Status) : (s.timerStep st).mem = s.mem := rfl
@[simp] theorem timerStep_glyphs (st : Status) : (s.timerStep st).glyphs = s.glyphs := rfl
@[simp] theorem timerStep_V (st : Status) : (s.timerStep st).V = s.V := rfl
@[simp] theorem timerStep_I (st : Status) : (s.timerStep st).I = s.I := rfl
@[simp] theorem timerStep_pc (st : Status) : (s.timerStep st).pc = s.pc := rfl
@[simp] theorem timerStep_stack (st : Status) : (s.timerStep st).stack = s.stack := rfl
@[simp] theorem timerStep_sp (st : Status) : (s.timerStep st).sp = s.sp := rfl
@[simp] theorem timerStep_DT (st : Status) : (s.timerStep st).DT = countDown s.DT := rfl
@[simp] theorem timerStep_ST (st : Status) : (s.timerStep st).ST = countDown s.ST := rfl
@[simp] theorem timerStep_gfx (st : Status) : (s.timerStep st).gfx = s.gfx := rfl
@[simp] theorem timerStep_keys (st : Status) : (s.timerStep st).keys = s.keys := rfl
@[simp] theorem timerStep_drawFlag (st : Status) : (s.timerStep st).drawFlag = s.drawFlag := rfl
@[simp] theorem timerStep_mode (st : Status) : (s.timerStep st).mode = s.mode := rfl
@[simp] theorem timerStep_draws (st : Status) : (s.timerStep st).draws = s.draws := rfl
@[simp] theorem timerStep_out (st : Status) : (s.timerStep st).out = some ⟨st, s.ST == 1⟩ := rfl
@[simp] theorem timerStep_memRead (st : Status) (a : Nat) : (s.timerStep st).memRead a = s.memRead a := rfl
@[simp] theorem timerStep_readV (st : Status) (q : Reg) : (s.timerStep st).readV q = s.readV q := rfl

/-! ## noTimerStep -/

@[simp] theorem noTimerStep_mem (st : Status) : (s.noTimerStep st).mem = s.mem := rfl
@[simp] theorem noTimerStep_glyphs (st : Status) : (s.noTimerStep st).glyphs = s.glyphs := rfl
@[simp] theorem noTimerStep_V (st : Status) : (s.noTimerStep st).V = s.V := rfl
@[simp] theorem noTimerStep_I (st : Status) : (s.noTimerStep st).I = s.I := rfl
@[simp] theorem noTimerStep_pc (st : Status) : (s.noTimerStep st).pc = s.pc := rfl
@[simp] theorem noTimerStep_stack (st : Status) : (s.noTimerStep st).stack = s.stack := rfl
@[simp] theorem noTimerStep_sp (st : Status) : (s.noTimerStep st).sp = s.sp := rfl
@[simp] theorem noTimerStep_DT (st : Status) : (s.noTimerStep st).DT = s.DT := rfl
@[simp] theorem noTimerStep_ST (st : Status) : (s.noTimerStep st).ST = s.ST := rfl
@[simp] theorem noTimerStep_gfx (st : Status) : (s.noTimerStep st).gfx = s.gfx := rfl
@[simp] theorem noTimerStep_keys (st : Status) : (s.noTimerStep st).keys = s.keys := rfl
@[simp] theorem noTimerStep_drawFlag (st : Status) : (s.noTimerStep st).drawFlag = s.drawFlag := rfl
@[simp] theorem noTimerStep_mode (st : Status) : (s.noTimerStep st).mode = s.mode := rfl
@[simp] theorem noTimerStep_draws (st : Status) : (s.noTimerStep st).draws = s.draws := rfl
@[simp] theorem noTimerStep_out (st : Status) : (s.noTimerStep st).out = some ⟨st, false⟩ := rfl
@[simp] theorem noTimerStep_memRead (st : Status) (a : Nat) : (s.noTimerStep st).memRead a = s.memRead a := rfl
@[simp] theorem noTimerStep_readV (st : Status) (q : Reg) : (s.noTimerStep st).readV q = s.readV q := rfl

/-! ## afterReset -/

@[simp] theorem afterReset_mem : (s.afterReset).mem = [] := rfl
@[simp] theorem afterReset_glyphs : (s.afterReset).glyphs = s.glyphs := rfl
@[simp] theorem afterReset_V : (s.afterReset).V = Vector.replicate 16 0 := rfl
@[simp] theorem afterReset_I : (s.afterReset).I = 0 := rfl
@[simp] theorem afterReset_pc : (s.afterReset).pc = 0x200 := rfl
@[simp] theorem afterReset_stack : (s.afterReset).stack = Vector.replicate 16 0 := rfl
@[simp] theorem afterReset_sp : (s.afterReset).sp = 0 := rfl
@[simp] theorem afterReset_DT : (s.afterReset).DT = 0 := rfl
@[simp] theorem afterReset_ST : (s.afterReset).ST = 0 := rfl
@[simp] theorem afterReset_gfx : (s.afterReset).gfx = Frame.clear := rfl
@[simp] theorem afterReset_keys : (s.afterReset).keys = s.keys := rfl
@[simp] theorem afterReset_drawFlag : (s.afterReset).drawFlag = false := rfl
@[simp] theorem afterReset_mode : (s.afterReset).mode = .running := rfl
@[simp] theorem afterReset_draws : (s.afterReset).draws = s.draws := rfl
@[simp] theorem afterReset_out : (s.afterReset).out = s.out := rfl

end Sys2Proof.Machine
end

