-- ==== Sys2Proof/Laws/Memory.lean ====
section
/-! SUPPORT. Memory: read after write, what a write leaves alone, and the canonical form every write keeps. -/

namespace Sys2Proof.Machine

/-! ## Entries -/

theorem Memory.find_insert (m : Memory) (a : Nat) (b : Byte) (q : Nat) :
    Memory.find (Memory.insert m a b) q = if q = a then some b else Memory.find m q := by
  induction m with
  | nil => simp [Memory.insert, Memory.find, eq_comm]
  | cons c rest ih =>
    simp only [Memory.insert]
    split
    · simp [Memory.find, eq_comm]
    · split
      · rename_i h
        by_cases hq : q = a
        · simp [Memory.find, hq]
        · simp [Memory.find, hq, ← h, Ne.symm hq]
      · rename_i h
        by_cases hc : c.1 = q
        · have : q ≠ a := fun e => h (by omega)
          simp [Memory.find, hc, this]
        · simp [Memory.find, hc, ih]

theorem Memory.find_erase (m : Memory) (a q : Nat) :
    Memory.find (Memory.erase m a) q = if q = a then none else Memory.find m q := by
  induction m with
  | nil => simp [Memory.erase, Memory.find]
  | cons c rest ih =>
    simp only [Memory.erase, List.filter_cons] at ih ⊢
    by_cases hc : c.1 = a
    · simp only [hc, bne_self_eq_false, Bool.false_eq_true, ↓reduceIte, ih, Memory.find]
      by_cases hq : q = a
      · simp [hq]
      · simp [hq, Ne.symm hq]
    · by_cases hq : c.1 = q
      · have : q ≠ a := fun e => hc (hq.trans e)
        simp [Memory.find, hq, this]
      · simp [hc, Memory.find, hq, ih]

/-- Read after write: the written address gives the value written, every other address what it gave before (R72). -/
theorem Memory.read_write (g : GlyphTable) (m : Memory) (a : Nat) (b : Byte) (q : Nat) :
    Memory.read g (Memory.write g m a b) q = if q = a then b else Memory.read g m q := by
  unfold Memory.read Memory.write
  split
  · rename_i h
    rw [Memory.find_erase]
    by_cases hq : q = a <;> simp [hq, h]
  · rw [Memory.find_insert]
    by_cases hq : q = a <;> simp [hq]

@[simp] theorem memWrite_memRead_self (s : State) (a : Nat) (b : Byte) : (s.memWrite a b).memRead a = b := by
  simp [State.memRead, Memory.read_write]

theorem memWrite_memRead (s : State) (a : Nat) (b : Byte) (q : Nat) :
    (s.memWrite a b).memRead q = if q = a then b else s.memRead q := by
  simp [State.memRead, Memory.read_write]

/-! ## The canonical form -/

theorem Memory.rising_iff (m : Memory) : Memory.rising m = true ↔ m.Pairwise fun c d => c.1 < d.1 := by
  induction m with
  | nil => simp [Memory.rising]
  | cons c rest ih =>
    cases rest with
    | nil => simp [Memory.rising]
    | cons d rest =>
      simp only [Memory.rising, Bool.and_eq_true, decide_eq_true_eq, ih, List.pairwise_cons]
      constructor
      · rintro ⟨h, hd, hr⟩
        exact ⟨fun e he => by
          rcases List.mem_cons.mp he with rfl | he
          · exact h
          · exact Nat.lt_trans h (hd e he), hd, hr⟩
      · rintro ⟨h, hd, hr⟩
        exact ⟨h d (List.mem_cons_self ..), hd, hr⟩

theorem Memory.wf_iff (g : GlyphTable) (m : Memory) :
    Memory.wf g m = true ↔
      (m.Pairwise fun c d => c.1 < d.1) ∧ ∀ c ∈ m, c.1 < Config.memSize ∧ c.2 ≠ Memory.unlisted g c.1 := by
  simp [Memory.wf, Memory.rising_iff]

theorem Memory.mem_insert {m : Memory} {a : Nat} {b : Byte} {c : Host.Cell} (h : c ∈ Memory.insert m a b) :
    c = (a, b) ∨ c ∈ m := by
  induction m with
  | nil => simpa [Memory.insert] using h
  | cons d rest ih =>
    simp only [Memory.insert] at h
    split at h
    · simpa using h
    · split at h
      · rcases List.mem_cons.mp h with h | h
        · exact .inl h
        · exact .inr (List.mem_cons_of_mem _ h)
      · rcases List.mem_cons.mp h with h | h
        · exact .inr (h ▸ List.mem_cons_self ..)
        · exact (ih h).imp_right (List.mem_cons_of_mem _)

theorem Memory.insert_pairwise {m : Memory} (a : Nat) (b : Byte) (h : m.Pairwise fun c d => c.1 < d.1) :
    (Memory.insert m a b).Pairwise fun c d => c.1 < d.1 := by
  induction m with
  | nil => simp [Memory.insert]
  | cons d rest ih =>
    obtain ⟨hd, hr⟩ := List.pairwise_cons.mp h
    simp only [Memory.insert]
    split
    · rename_i hlt
      refine List.pairwise_cons.mpr ⟨fun e he => ?_, h⟩
      rcases List.mem_cons.mp he with rfl | he
      · exact hlt
      · exact Nat.lt_trans hlt (hd e he)
    · split
      · rename_i he
        exact List.pairwise_cons.mpr ⟨fun e h' => by simpa [he] using hd e h', hr⟩
      · refine List.pairwise_cons.mpr ⟨fun e he => ?_, ih hr⟩
        rcases Memory.mem_insert he with rfl | he
        · show d.1 < a
          omega
        · exact hd e he

/-- Every write inside the address space keeps the canonical form. -/
theorem Memory.write_wf {g : GlyphTable} {m : Memory} {a : Nat} (b : Byte) (h : Memory.wf g m = true)
    (ha : a < Config.memSize) : Memory.wf g (Memory.write g m a b) = true := by
  rw [Memory.wf_iff] at h ⊢
  unfold Memory.write
  split
  · exact ⟨h.1.filter _, fun c hc => h.2 c (List.mem_of_mem_filter hc)⟩
  · rename_i hb
    refine ⟨Memory.insert_pairwise a b h.1, fun c hc => ?_⟩
    rcases Memory.mem_insert hc with rfl | hc
    · exact ⟨ha, hb⟩
    · exact h.2 c hc

/-! ## Writing a list of bytes -/

theorem memWriteList_mem_only (s : State) (a : Nat) (bs : List Byte) :
    s.memWriteList a bs = { s with mem := (s.memWriteList a bs).mem } := by
  induction bs generalizing s a with
  | nil => rfl
  | cons b rest ih =>
    simp only [State.memWriteList]
    rw [ih]
    rfl

@[simp] theorem memWriteList_glyphs (s : State) (a : Nat) (bs : List Byte) : (s.memWriteList a bs).glyphs = s.glyphs := by
  rw [memWriteList_mem_only]

@[simp] theorem memWriteList_V (s : State) (a : Nat) (bs : List Byte) : (s.memWriteList a bs).V = s.V := by
  rw [memWriteList_mem_only]

@[simp] theorem memWriteList_readV (s : State) (a : Nat) (bs : List Byte) (r : Reg) :
    (s.memWriteList a bs).readV r = s.readV r := by
  rw [memWriteList_mem_only]; rfl

@[simp] theorem memWriteList_I (s : State) (a : Nat) (bs : List Byte) : (s.memWriteList a bs).I = s.I := by
  rw [memWriteList_mem_only]

@[simp] theorem memWriteList_pc (s : State) (a : Nat) (bs : List Byte) : (s.memWriteList a bs).pc = s.pc := by
  rw [memWriteList_mem_only]

@[simp] theorem memWriteList_stack (s : State) (a : Nat) (bs : List Byte) : (s.memWriteList a bs).stack = s.stack := by
  rw [memWriteList_mem_only]

@[simp] theorem memWriteList_sp (s : State) (a : Nat) (bs : List Byte) : (s.memWriteList a bs).sp = s.sp := by
  rw [memWriteList_mem_only]

@[simp] theorem memWriteList_DT (s : State) (a : Nat) (bs : List Byte) : (s.memWriteList a bs).DT = s.DT := by
  rw [memWriteList_mem_only]

@[simp] theorem memWriteList_ST (s : State) (a : Nat) (bs : List Byte) : (s.memWriteList a bs).ST = s.ST := by
  rw [memWriteList_mem_only]

@[simp] theorem memWriteList_gfx (s : State) (a : Nat) (bs : List Byte) : (s.memWriteList a bs).gfx = s.gfx := by
  rw [memWriteList_mem_only]

@[simp] theorem memWriteList_keys (s : State) (a : Nat) (bs : List Byte) : (s.memWriteList a bs).keys = s.keys := by
  rw [memWriteList_mem_only]

@[simp] theorem memWriteList_drawFlag (s : State) (a : Nat) (bs : List Byte) :
    (s.memWriteList a bs).drawFlag = s.drawFlag := by
  rw [memWriteList_mem_only]

@[simp] theorem memWriteList_mode (s : State) (a : Nat) (bs : List Byte) : (s.memWriteList a bs).mode = s.mode := by
  rw [memWriteList_mem_only]

@[simp] theorem memWriteList_draws (s : State) (a : Nat) (bs : List Byte) : (s.memWriteList a bs).draws = s.draws := by
  rw [memWriteList_mem_only]

@[simp] theorem memWriteList_out (s : State) (a : Nat) (bs : List Byte) : (s.memWriteList a bs).out = s.out := by
  rw [memWriteList_mem_only]

/-- A list write gives its k-th byte at a + k and leaves every address outside a .. a + length - 1 alone. -/
theorem memWriteList_memRead (s : State) (a : Nat) (bs : List Byte) (q : Nat) :
    (s.memWriteList a bs).memRead q =
      if h : a ≤ q ∧ q < a + bs.length then bs[q - a]'(by omega) else s.memRead q := by
  induction bs generalizing s a with
  | nil =>
    simp only [State.memWriteList, List.length_nil]
    rw [dif_neg (by omega)]
  | cons b rest ih =>
    rw [State.memWriteList, ih]
    by_cases h1 : q = a
    · subst h1
      simp
    · by_cases h2 : a + 1 ≤ q ∧ q < a + 1 + rest.length
      · have h3 : a ≤ q ∧ q < a + (b :: rest).length := by simp; omega
        rw [dif_pos h2, dif_pos h3]
        obtain ⟨k, rfl⟩ : ∃ k, q = a + 1 + k := ⟨q - (a + 1), by omega⟩
        have e1 : a + 1 + k - (a + 1) = k := by omega
        have e2 : a + 1 + k - a = k + 1 := by omega
        simp only [e1, e2, List.getElem_cons_succ]
      · have h3 : ¬ (a ≤ q ∧ q < a + (b :: rest).length) := by simp; omega
        rw [dif_neg h2, dif_neg h3, memWrite_memRead, if_neg h1]

theorem memWriteList_memRead_at (s : State) (a : Nat) (bs : List Byte) (k : Nat) (h : k < bs.length) :
    (s.memWriteList a bs).memRead (a + k) = bs[k] := by
  rw [memWriteList_memRead, dif_pos ⟨by omega, by omega⟩]
  simp

theorem memWriteList_memRead_outside (s : State) (a : Nat) (bs : List Byte) (q : Nat) (h : q < a ∨ a + bs.length ≤ q) :
    (s.memWriteList a bs).memRead q = s.memRead q := by
  rw [memWriteList_memRead, dif_neg (by omega)]

/-- A list write inside the address space keeps the canonical form. -/
theorem memWriteList_wf (s : State) (a : Nat) (bs : List Byte) (h : Memory.wf s.glyphs s.mem = true)
    (ha : a + bs.length ≤ Config.memSize) :
    Memory.wf (s.memWriteList a bs).glyphs (s.memWriteList a bs).mem = true := by
  induction bs generalizing s a with
  | nil => exact h
  | cons b rest ih =>
    simp only [List.length_cons] at ha
    exact ih _ _ (Memory.write_wf b h (by omega)) (by omega)

end Sys2Proof.Machine
end

