-- ==== Sys2Proof/Laws/Registers.lean ====
section
/-! SUPPORT. Registers, stack and pc: what each shared operation gives when it is read. -/

namespace Sys2Proof.Machine

/-! ## V registers -/

theorem writeV_readV (s : State) (r : Reg) (b : Byte) (q : Reg) :
    (s.writeV r b).readV q = if q = r then b else s.readV q := by
  simp only [State.readV, State.writeV, Fin.getElem_fin, Vector.getElem_set, Fin.ext_iff, eq_comm]

@[simp] theorem writeV_readV_self (s : State) (r : Reg) (b : Byte) : (s.writeV r b).readV r = b := by
  simp [writeV_readV]

theorem writeF_readV (s : State) (b : Byte) (q : Reg) :
    (s.writeF b).readV q = if q = 15 then b else s.readV q := writeV_readV s 15 b q

/-- A binary operation writes V[X] and no other register. -/
theorem binary_readV (s : State) (x y : Reg) (f : Byte → Byte → Byte) (q : Reg) :
    (s.binary x y f).readV q = if q = x then f (s.readV x) (s.readV y) else s.readV q := writeV_readV ..

/-- The flag-writing form when neither operand is VF: VF takes the flag and V[X] the result of the old operands (R226). -/
theorem flagThenResult_readV (s : State) (x y : Reg) (f g : Byte → Byte → Byte) (hx : x ≠ 15) (hy : y ≠ 15) (q : Reg) :
    (s.flagThenResult x y f g).readV q =
      if q = x then g (s.readV x) (s.readV y)
      else if q = 15 then f (s.readV x) (s.readV y) else s.readV q := by
  simp only [State.flagThenResult, binary_readV, writeF_readV, if_neg hx, if_neg hy]

/-- The flag-writing form in general: the result reads the registers as the flag write left them (R226). -/
theorem flagThenResult_readV_general (s : State) (x y : Reg) (f g : Byte → Byte → Byte) (q : Reg) :
    (s.flagThenResult x y f g).readV q =
      let v := f (s.readV x) (s.readV y)
      if q = x then g (if x = 15 then v else s.readV x) (if y = 15 then v else s.readV y)
      else if q = 15 then v else s.readV q := by
  simp only [State.flagThenResult, binary_readV, writeF_readV]

/-- Loading n registers writes V0 .. V(n-1) from I, I+1, … and no other register (R265). -/
theorem loadRegisters_readV (s : State) (n : Nat) (hn : n ≤ 16) (q : Reg) :
    (s.loadRegisters n).readV q = if q.val < n then s.memRead (s.dataAddr q.val) else s.readV q := by
  induction n with
  | zero => simp [State.loadRegisters]
  | succ n ih =>
    have e : (Fin.ofNat 16 n).val = n := Nat.mod_eq_of_lt (by omega)
    rw [State.loadRegisters, writeV_readV, ih (by omega)]
    by_cases h : q = Fin.ofNat 16 n
    · have : q.val = n := by rw [h, e]
      rw [if_pos h, if_pos (by omega), this]
    · have : q.val ≠ n := fun h' => h (Fin.ext (by rw [e, h']))
      simp only [h, if_false]
      by_cases h2 : q.val < n
      · rw [if_pos h2, if_pos (by omega)]
      · rw [if_neg h2, if_neg (by omega)]

/-- Loading registers changes V alone. -/
theorem loadRegisters_V_only (s : State) (n : Nat) : s.loadRegisters n = { s with V := (s.loadRegisters n).V } := by
  induction n with
  | zero => rfl
  | succ n ih =>
    rw [State.loadRegisters, ih]
    rfl

theorem registersTo_length (s : State) (x : Reg) : (s.registersTo x).length = x.val + 1 := by
  simp [State.registersTo]

theorem registersTo_get (s : State) (x : Reg) (k : Nat) (h : k < (s.registersTo x).length) :
    (s.registersTo x)[k] = s.readV ⟨k, by rw [registersTo_length] at h; omega⟩ := by
  simp [State.registersTo, State.readV]

/-! ## Stack -/

/-- A push writes the slot at sp and leaves every other slot alone (R182). -/
theorem pushPc_slot (s : State) (h : s.sp.val < 16) (j : Fin 16) :
    (s.pushPc h).stack[j] = if j.val = s.sp.val then s.pc else s.stack[j] := by
  simp only [State.pushPc, Fin.getElem_fin, Vector.getElem_set, eq_comm]

/-- What a push puts on top is what a pop takes (R189). -/
theorem pushPc_topOfStack (s : State) (h : s.sp.val < 16) :
    (s.pushPc h).topOfStack (Nat.succ_pos _) = s.pc := by
  simp [State.topOfStack, State.pushPc]

/-! ## Data range (R75) -/

theorem dataInRange_iff (s : State) (n : Nat) : s.dataInRange n = true ↔ n = 0 ∨ s.I.toNat + n ≤ 4096 := by
  simp only [State.dataInRange, Bool.or_eq_true, beq_iff_eq, decide_eq_true_eq]
  omega

/-! ## Keys (R334) -/

theorem pressedKeys_eq_nil_iff (s : State) : s.pressedKeys = [] ↔ ∀ k : Fin 16, s.keys[k] = false := by
  simp [State.pressedKeys, List.filter_eq_nil_iff]

end Sys2Proof.Machine
end

