-- ==== Sys2Proof/Laws/Exec.lean ====
section
/-! SUPPORT. What the execute phase can answer, said once: an instruction is done, waits, or is fatal with nothing changed but
the mode. -/

namespace Sys2Proof.Machine

/-- The three outcomes of an execute phase (40_cycle.md rule R145), as the state it answers. -/
inductive ExecOutcome (i : Instr) (s : State) : Result → Prop where
  | done (t : State) (running : t.mode = .running) : ExecOutcome i s (.next t)
  | wait (x : Reg) (isWait : i = .opFX0A x) (none : s.pressedKeys = []) : ExecOutcome i s (.next (s.wait x))
  | fatal (reason : FatalReason) : ExecOutcome i s (.next (s.raiseFatal reason (some (encodeWord i))))

theorem exec_outcome (i : Instr) (s : State) : ExecOutcome i s (exec i s) := by
  cases i with
  | op00EE =>
    simp only [exec, exec00EE]
    split
    · exact .done _ rfl
    · exact .fatal _
  | op2NNN nnn =>
    simp only [exec, exec2NNN]
    split
    · exact .done _ rfl
    · exact .fatal _
  | opDXYN x y n =>
    simp only [exec, execDXYN]
    split
    · exact .done _ rfl
    · exact .fatal _
  | opEX9E x =>
    simp only [exec, execEX9E]
    split
    · exact .done _ rfl
    · exact .fatal _
  | opEXA1 x =>
    simp only [exec, execEXA1]
    split
    · exact .done _ rfl
    · exact .fatal _
  | opFX0A x =>
    simp only [exec, execFX0A]
    split
    · exact .wait x rfl ‹_›
    · exact .done _ rfl
  | opFX33 x =>
    simp only [exec, execFX33]
    split
    · exact .done _ rfl
    · exact .fatal _
  | opFX55 x =>
    simp only [exec, execFX55]
    split
    · exact .done _ rfl
    · exact .fatal _
  | opFX65 x =>
    simp only [exec, execFX65]
    split
    · exact .done _ rfl
    · exact .fatal _
  | _ => exact .done _ rfl

end Sys2Proof.Machine
end

