-- ==== Sys2Proof/Laws/Cycle.lean ====
section
/-! SUPPORT. What a Step can answer, said once, and how it ends. -/

namespace Sys2Proof.Machine

/-! ## Timers and the end of a Step -/

theorem countDown_toNat (b : Byte) : (countDown b).toNat = b.toNat - 1 := by
  unfold countDown
  split
  · rename_i h
    simp [h]
  · rename_i h
    have h0 : b.toNat ≠ 0 := fun e => h (BitVec.eq_of_toNat_eq (by simpa using e))
    have := b.isLt
    rw [BitVec.toNat_sub]
    simp
    omega

theorem finish_running {t : State} (h : t.mode = .running) : t.finish = t.timerStep .ok := by
  simp [State.finish, h]

theorem finish_awaiting {t : State} {x : Reg} (h : t.mode = .awaitingKey x) : t.finish = t.timerStep .waiting := by
  simp [State.finish, h]

theorem finish_halted {t : State} {f : FatalRecord} (h : t.mode = .halted f) :
    t.finish = t.noTimerStep (.fatal f) := by
  simp [State.finish, h]

@[simp] theorem finish_mode (t : State) : t.finish.mode = t.mode := by
  unfold State.finish
  split <;> rfl

/-! ## Fetch (R141) -/

theorem fetch_of_range {s : State} (h : s.pc.toNat + 1 ≤ 0xFFF) :
    s.fetch = some (wordOfBytes (s.memRead s.pc.toNat) (s.memRead (s.pc.toNat + 1))) := by
  simp only [State.fetch]
  rw [if_neg (by omega)]

theorem fetch_past_end {s : State} (h : 0xFFF < s.pc.toNat + 1) : s.fetch = none := by
  simp only [State.fetch]
  rw [if_pos h]

theorem fetch_some {s : State} {w : Word} (h : s.fetch = some w) : s.pc.toNat + 1 ≤ 0xFFF := by
  by_contra hc
  rw [fetch_past_end (by omega)] at h
  cases h

/-- The word that `withFetchWord` stores is the one the next Step fetches, from every state. -/
theorem withFetchWord_fetch (s : State) (nbits w : Nat) :
    (s.withFetchWord nbits w).fetch = some (BitVec.ofNat 16 (w % 2 ^ nbits)) := by
  simp only [State.withFetchWord]
  have hp : (if s.pc.toNat + 1 > 0xFFF then (0x200 : Word) else s.pc).toNat + 1 ≤ 0xFFF := by
    split
    · decide
    · omega
  generalize (if s.pc.toNat + 1 > 0xFFF then (0x200 : Word) else s.pc) = pc at hp
  rw [fetch_of_range (by simpa using hp)]
  simp only [memWriteList_pc, memWriteList_memRead]
  simp

/-! ## The cases of a Step (R140, R408) -/

/-- In order: Halted, the fetch fault, the unknown word, and the three ends of an execute phase. -/
inductive StepOutcome (s : State) : State → Prop where
  | halted (f : FatalRecord) (mode : s.mode = .halted f) : StepOutcome s (s.noTimerStep (.halted f))
  | fetchFault (live : ∀ f, s.mode ≠ .halted f) (fetch : s.fetch = none) :
      StepOutcome s
        ((s.raiseFatal .addressOutOfRange none).noTimerStep (.fatal ⟨.addressOutOfRange, s.pc, none⟩))
  | unknown (w : Word) (live : ∀ f, s.mode ≠ .halted f) (fetch : s.fetch = some w) (dec : decodeWord w = .unknown w) :
      StepOutcome s (s.done.timerStep (.unknownOpcode w))
  | done (w : Word) (i : Instr) (t : State) (live : ∀ f, s.mode ≠ .halted f) (fetch : s.fetch = some w)
      (dec : decodeWord w = .known i) (ex : exec i s = .next t) (running : t.mode = .running) :
      StepOutcome s (t.timerStep .ok)
  | wait (w : Word) (x : Reg) (live : ∀ f, s.mode ≠ .halted f) (fetch : s.fetch = some w)
      (dec : decodeWord w = .known (.opFX0A x)) (none : s.pressedKeys = []) :
      StepOutcome s ((s.wait x).timerStep .waiting)
  | fatal (w : Word) (i : Instr) (reason : FatalReason) (live : ∀ f, s.mode ≠ .halted f) (fetch : s.fetch = some w)
      (dec : decodeWord w = .known i) (ex : exec i s = .next (s.raiseFatal reason (some (encodeWord i)))) :
      StepOutcome s
        ((s.raiseFatal reason (some (encodeWord i))).noTimerStep (.fatal ⟨reason, s.pc, some (encodeWord i)⟩))

theorem step_of_live {s : State} (h : ∀ f, s.mode ≠ .halted f) : step s = runStep s := by
  unfold step cycle
  split
  · rename_i f hm
    exact absurd hm (h f)
  · rfl
  · rfl

theorem step_outcome (s : State) : ∃ t, step s = .next t ∧ StepOutcome s t := by
  by_cases live : ∀ f, s.mode ≠ .halted f
  · rw [step_of_live live]
    unfold runStep
    cases hw : s.fetch with
    | none => exact ⟨_, rfl, .fetchFault live hw⟩
    | some w =>
      simp only [runWord]
      cases hd : decodeWord w with
      | unknown u =>
        obtain rfl := decodeWord_unknown hd
        exact ⟨_, rfl, .unknown _ live hw hd⟩
      | known i =>
        have ho := exec_outcome i s
        generalize he : exec i s = r at ho
        cases ho with
        | done t ht => exact ⟨_, by simp only [he, Result.map, finish_running ht], .done w i t live hw hd he ht⟩
        | wait x hx hn =>
          subst hx
          exact ⟨_, by simp only [he]; rfl, .wait w x live hw hd hn⟩
        | fatal reason => exact ⟨_, by simp only [he]; rfl, .fatal w i reason live hw hd he⟩
  · simp only [ne_eq, not_forall, not_not] at live
    obtain ⟨f, hf⟩ := live
    exact ⟨_, by simp only [step, cycle, hf], .halted f hf⟩

/-- A Step that answers `t` did so in one of the cases of `StepOutcome`. -/
theorem step_cases {s t : State} (h : step s = .next t) : StepOutcome s t := by
  obtain ⟨u, hu, ho⟩ := step_outcome s
  rw [h] at hu
  cases hu
  exact ho

/-- The Step of a live state that fetches a known word is the execute phase and its end. -/
theorem step_known {s : State} {w : Word} {i : Instr} (live : ∀ f, s.mode ≠ .halted f) (hw : s.fetch = some w)
    (hd : decodeWord w = .known i) : step s = Result.map State.finish (exec i s) := by
  simp only [step_of_live live, runStep, hw, runWord, hd]

/-! ## The terms of Safety.lean -/

theorem isHalted_eq_false_iff (m : Mode) : m.isHalted = false ↔ ∀ f, m ≠ .halted f := by
  cases m <;> simp [Mode.isHalted]

/-- The next instruction is the one the fetched word decodes to. -/
theorem nextInstr_eq_some_iff (s : State) (i : Instr) :
    s.nextInstr = some i ↔ ∃ w, s.fetch = some w ∧ decodeWord w = .known i := by
  unfold State.nextInstr
  cases hf : s.fetch with
  | none => simp
  | some w => cases hd : decodeWord w <;> simp [hd]

/-- A run of k + 1 Steps is a Step and a run of k. -/
theorem run_succ {s t : State} (k : Nat) (h : step s = .next t) :
    Host.Core.run Sys2Proof.core (k + 1) s = Host.Core.run Sys2Proof.core k t := by
  simp only [Host.Core.run, show Sys2Proof.core.step s = .next t from h]

end Sys2Proof.Machine
end

