-- ==== Sys2Proof/Laws/Display.lean ====
section
/-! SUPPORT. The framebuffer's cells: what a flip does to each. -/

namespace Sys2Proof.Machine

/-- A flip inverts its cell and leaves every other cell alone (R301). -/
theorem cell_flip (g : Frame) (k q : Fin 2048) :
    (g.flip k).cell q = if q = k then !g.cell q else g.cell q := by
  have hk : k.val / 64 < 32 := by omega
  have hq : q.val / 64 < 32 := by omega
  simp only [Frame.cell, Frame.flip, Vector.getElem_set]
  by_cases hr : k.val / 64 = q.val / 64
  · by_cases he : q = k
    · subst he
      simp [Nat.mod_lt]
    · have hb : q.val % 64 ≠ k.val % 64 := fun h => he (Fin.ext (by omega))
      rw [if_neg he]
      simp only [hr, if_true, BitVec.getLsbD_xor, BitVec.getLsbD_shiftLeft, BitVec.getLsbD_one]
      have : ¬ (q.val % 64 - k.val % 64 = 0 ∧ ¬ q.val % 64 < k.val % 64) := by omega
      by_cases hlt : q.val % 64 < k.val % 64
      · simp [hlt]
      · have h0 : q.val % 64 - k.val % 64 ≠ 0 := by omega
        simp [h0]
  · have he : q ≠ k := fun h => hr (by rw [h])
    simp [hr, he]

@[simp] theorem cell_clear (k : Fin 2048) : Frame.clear.cell k = false := by
  simp [Frame.cell, Frame.clear]

/-- Two framebuffers with the same cells are the same. -/
theorem frame_ext {g h : Frame} (e : ∀ k, g.cell k = h.cell k) : g = h := by
  apply Vector.ext
  intro r hr
  apply BitVec.eq_of_getLsbD_eq
  intro b hb
  have := e ⟨r * 64 + b, by omega⟩
  have e1 : (r * 64 + b) / 64 = r := by omega
  have e2 : (r * 64 + b) % 64 = b := by omega
  simpa [Frame.cell, e1, e2] using this

/-- One sprite pixel: a 1 bit inverts its cell, leaves every other alone, and collides when the cell held 1 (R301, R304). -/
theorem drawPixel_effect (x0 y0 b : Byte) (row : Nat) (c : Canvas) (col : Nat) (q : Fin 2048) :
    (drawPixel x0 y0 b row c col).1.cell q =
        xor (c.1.cell q) (spriteBit b col && q == pixelIndex x0 y0 row col) ∧
      (drawPixel x0 y0 b row c col).2 = (c.2 || (spriteBit b col && c.1.cell (pixelIndex x0 y0 row col))) := by
  unfold drawPixel
  split
  · rename_i h
    refine ⟨?_, by simp [h]⟩
    rw [cell_flip]
    by_cases hq : q = pixelIndex x0 y0 row col
    · simp [h, hq]
    · simp [h, hq, beq_eq_false_iff_ne.mpr hq]
  · rename_i h
    simp [h]

/-- A sprite's rows are drawn one after the other, top row first (R301). -/
theorem drawRows_append (x0 y0 : Byte) (row : Nat) (c : Canvas) (bs ds : List Byte) :
    drawRows x0 y0 row c (bs ++ ds) = drawRows x0 y0 (row + bs.length) (drawRows x0 y0 row c bs) ds := by
  induction bs generalizing row c with
  | nil => rfl
  | cons b rest ih =>
    simp only [List.cons_append, drawRows, ih, List.length_cons]
    congr 1
    omega

end Sys2Proof.Machine
end

