-- ==== Sys2Proof/Laws/PerInstr.lean ====
section
/-! SUPPORT. The per-instruction family RoundTrip: decoding an instruction's word gives the instruction back, operands and
all (30_encoding.md rules R101, R103, R110). -/

namespace Sys2Proof.Laws.RoundTrip

/-- Decoding the instruction's word gives the instruction. -/
def Statement (i : Instr) : Prop := decodeWord (encodeWord i) = .known i

/-! ## One lemma per instruction -/

theorem op00E0 : Statement .op00E0 := by
  unfold Statement
  decide

theorem op00EE : Statement .op00EE := by
  unfold Statement
  decide

theorem op1NNN (nnn : Addr) : Statement (.op1NNN nnn) := by
  obtain ⟨hf, hn⟩ := formatA 0x1 nnn (by decide)
  simp only [Statement, encodeWord, decodeWord, hf, hn]

theorem op2NNN (nnn : Addr) : Statement (.op2NNN nnn) := by
  obtain ⟨hf, hn⟩ := formatA 0x2 nnn (by decide)
  simp only [Statement, encodeWord, decodeWord, hf, hn]

theorem op3XNN (x : Reg) (nn : Byte) : Statement (.op3XNN x nn) := by
  obtain ⟨hf, hx, hn⟩ := formatXB 0x3 x nn (by decide)
  simp only [Statement, encodeWord, decodeWord, hf, hx, hn]

theorem op4XNN (x : Reg) (nn : Byte) : Statement (.op4XNN x nn) := by
  obtain ⟨hf, hx, hn⟩ := formatXB 0x4 x nn (by decide)
  simp only [Statement, encodeWord, decodeWord, hf, hx, hn]

theorem op5XY0 (x y : Reg) : Statement (.op5XY0 x y) := by
  obtain ⟨hf, hx, hy, hl⟩ := formatXY 0x5 x y 0x0 (by decide) (by decide)
  simp [Statement, encodeWord, decodeWord, decodeLowZero, hf, hx, hy, hl]

theorem op6XNN (x : Reg) (nn : Byte) : Statement (.op6XNN x nn) := by
  obtain ⟨hf, hx, hn⟩ := formatXB 0x6 x nn (by decide)
  simp only [Statement, encodeWord, decodeWord, hf, hx, hn]

theorem op7XNN (x : Reg) (nn : Byte) : Statement (.op7XNN x nn) := by
  obtain ⟨hf, hx, hn⟩ := formatXB 0x7 x nn (by decide)
  simp only [Statement, encodeWord, decodeWord, hf, hx, hn]

theorem op8XY0 (x y : Reg) : Statement (.op8XY0 x y) := by
  obtain ⟨hf, hx, hy, hl⟩ := formatXY 0x8 x y 0x0 (by decide) (by decide)
  simp [Statement, encodeWord, decodeWord, decodeFamily8, hf, hx, hy, hl]

theorem op8XY1 (x y : Reg) : Statement (.op8XY1 x y) := by
  obtain ⟨hf, hx, hy, hl⟩ := formatXY 0x8 x y 0x1 (by decide) (by decide)
  simp [Statement, encodeWord, decodeWord, decodeFamily8, hf, hx, hy, hl]

theorem op8XY2 (x y : Reg) : Statement (.op8XY2 x y) := by
  obtain ⟨hf, hx, hy, hl⟩ := formatXY 0x8 x y 0x2 (by decide) (by decide)
  simp [Statement, encodeWord, decodeWord, decodeFamily8, hf, hx, hy, hl]

theorem op8XY3 (x y : Reg) : Statement (.op8XY3 x y) := by
  obtain ⟨hf, hx, hy, hl⟩ := formatXY 0x8 x y 0x3 (by decide) (by decide)
  simp [Statement, encodeWord, decodeWord, decodeFamily8, hf, hx, hy, hl]

theorem op8XY4 (x y : Reg) : Statement (.op8XY4 x y) := by
  obtain ⟨hf, hx, hy, hl⟩ := formatXY 0x8 x y 0x4 (by decide) (by decide)
  simp [Statement, encodeWord, decodeWord, decodeFamily8, hf, hx, hy, hl]

theorem op8XY5 (x y : Reg) : Statement (.op8XY5 x y) := by
  obtain ⟨hf, hx, hy, hl⟩ := formatXY 0x8 x y 0x5 (by decide) (by decide)
  simp [Statement, encodeWord, decodeWord, decodeFamily8, hf, hx, hy, hl]

theorem op8XY6 (x y : Reg) : Statement (.op8XY6 x y) := by
  obtain ⟨hf, hx, hy, hl⟩ := formatXY 0x8 x y 0x6 (by decide) (by decide)
  simp [Statement, encodeWord, decodeWord, decodeFamily8, hf, hx, hy, hl]

theorem op8XY7 (x y : Reg) : Statement (.op8XY7 x y) := by
  obtain ⟨hf, hx, hy, hl⟩ := formatXY 0x8 x y 0x7 (by decide) (by decide)
  simp [Statement, encodeWord, decodeWord, decodeFamily8, hf, hx, hy, hl]

theorem op8XYE (x y : Reg) : Statement (.op8XYE x y) := by
  obtain ⟨hf, hx, hy, hl⟩ := formatXY 0x8 x y 0xE (by decide) (by decide)
  simp [Statement, encodeWord, decodeWord, decodeFamily8, hf, hx, hy, hl]

theorem op9XY0 (x y : Reg) : Statement (.op9XY0 x y) := by
  obtain ⟨hf, hx, hy, hl⟩ := formatXY 0x9 x y 0x0 (by decide) (by decide)
  simp [Statement, encodeWord, decodeWord, decodeLowZero, hf, hx, hy, hl]

theorem opANNN (nnn : Addr) : Statement (.opANNN nnn) := by
  obtain ⟨hf, hn⟩ := formatA 0xA nnn (by decide)
  simp only [Statement, encodeWord, decodeWord, hf, hn]

theorem opBNNN (nnn : Addr) : Statement (.opBNNN nnn) := by
  obtain ⟨hf, hn⟩ := formatA 0xB nnn (by decide)
  simp only [Statement, encodeWord, decodeWord, hf, hn]

theorem opCXNN (x : Reg) (nn : Byte) : Statement (.opCXNN x nn) := by
  obtain ⟨hf, hx, hn⟩ := formatXB 0xC x nn (by decide)
  simp only [Statement, encodeWord, decodeWord, hf, hx, hn]

theorem opDXYN (x y : Reg) (n : Rows) : Statement (.opDXYN x y n) := by
  obtain ⟨hf, hx, hy, hl⟩ := formatXY 0xD x y n.val (by decide) n.isLt
  have hn := fieldN_of ((bits_low_nibble _).symm.trans hl)
  simp only [Statement, encodeWord, decodeWord, hf, hx, hy, hn]

theorem opEX9E (x : Reg) : Statement (.opEX9E x) := by
  obtain ⟨hf, hx, hl⟩ := formatXS 0xE x 0x9E (by decide) (by decide)
  simp [Statement, encodeWord, decodeWord, decodeFamilyE, hf, hx, hl]

theorem opEXA1 (x : Reg) : Statement (.opEXA1 x) := by
  obtain ⟨hf, hx, hl⟩ := formatXS 0xE x 0xA1 (by decide) (by decide)
  simp [Statement, encodeWord, decodeWord, decodeFamilyE, hf, hx, hl]

theorem opFX07 (x : Reg) : Statement (.opFX07 x) := by
  obtain ⟨hf, hx, hl⟩ := formatXS 0xF x 0x07 (by decide) (by decide)
  simp [Statement, encodeWord, decodeWord, decodeFamilyF, hf, hx, hl]

theorem opFX15 (x : Reg) : Statement (.opFX15 x) := by
  obtain ⟨hf, hx, hl⟩ := formatXS 0xF x 0x15 (by decide) (by decide)
  simp [Statement, encodeWord, decodeWord, decodeFamilyF, hf, hx, hl]

theorem opFX18 (x : Reg) : Statement (.opFX18 x) := by
  obtain ⟨hf, hx, hl⟩ := formatXS 0xF x 0x18 (by decide) (by decide)
  simp [Statement, encodeWord, decodeWord, decodeFamilyF, hf, hx, hl]

theorem opFX0A (x : Reg) : Statement (.opFX0A x) := by
  obtain ⟨hf, hx, hl⟩ := formatXS 0xF x 0x0A (by decide) (by decide)
  simp [Statement, encodeWord, decodeWord, decodeFamilyF, hf, hx, hl]

theorem opFX1E (x : Reg) : Statement (.opFX1E x) := by
  obtain ⟨hf, hx, hl⟩ := formatXS 0xF x 0x1E (by decide) (by decide)
  simp [Statement, encodeWord, decodeWord, decodeFamilyF, hf, hx, hl]

theorem opFX29 (x : Reg) : Statement (.opFX29 x) := by
  obtain ⟨hf, hx, hl⟩ := formatXS 0xF x 0x29 (by decide) (by decide)
  simp [Statement, encodeWord, decodeWord, decodeFamilyF, hf, hx, hl]

theorem opFX33 (x : Reg) : Statement (.opFX33 x) := by
  obtain ⟨hf, hx, hl⟩ := formatXS 0xF x 0x33 (by decide) (by decide)
  simp [Statement, encodeWord, decodeWord, decodeFamilyF, hf, hx, hl]

theorem opFX55 (x : Reg) : Statement (.opFX55 x) := by
  obtain ⟨hf, hx, hl⟩ := formatXS 0xF x 0x55 (by decide) (by decide)
  simp [Statement, encodeWord, decodeWord, decodeFamilyF, hf, hx, hl]

theorem opFX65 (x : Reg) : Statement (.opFX65 x) := by
  obtain ⟨hf, hx, hl⟩ := formatXS 0xF x 0x65 (by decide) (by decide)
  simp [Statement, encodeWord, decodeWord, decodeFamilyF, hf, hx, hl]

end Sys2Proof.Laws.RoundTrip
end

