-- ==== Sys2Proof/Laws/Transactions.lean ====
section
/-! SUPPORT. What Load answers, said once. -/

namespace Sys2Proof.Machine

/-- A program image that is too long is rejected before any copy (R447). -/
theorem loadTx_too_long (s : State) (bytes : List Byte) (h : 3584 < bytes.length) :
    loadTx s bytes = (s, .programTooLarge) := by
  unfold loadTx
  exact if_pos h

/-- A program image that fits is copied to 0x200 on (R446). -/
theorem loadTx_fits (s : State) (bytes : List Byte) (h : bytes.length ≤ 3584) :
    loadTx s bytes = (s.memWriteList 0x200 bytes, .ok) := by
  unfold loadTx
  exact if_neg (Nat.not_lt.mpr h)

end Sys2Proof.Machine
end

