-- ==== Sys2Proof/Laws/WellFormed.lean ====
section
/-! SUPPORT. The operand types carry every range that WellFormed.lean checks. -/

namespace Sys2Proof

@[simp] theorem field_x_fits (r : Reg) : (Field.x r).fits = true := by
  simp [Field.fits, Field.x]

@[simp] theorem field_y_fits (r : Reg) : (Field.y r).fits = true := by
  simp [Field.fits, Field.y]

@[simp] theorem field_n_fits (k : Rows) : (Field.n k).fits = true := by
  simp [Field.fits, Field.n]

@[simp] theorem field_nn_fits (b : Byte) : (Field.nn b).fits = true := by
  have := b.isLt
  simp [Field.fits, Field.nn]
  omega

@[simp] theorem field_nnn_fits (a : Addr) : (Field.nnn a).fits = true := by
  have := a.isLt
  simp [Field.fits, Field.nnn]
  omega

/-- Every term of `Instr` is well-formed. -/
theorem instr_wellFormed (i : Instr) : i.wellFormed = true := by
  cases i <;>
    simp [Instr.wellFormed, Instr.fields, Field.wellFormed, Field.separate] <;>
    simp [Field.x, Field.y, Field.n, Field.nn]

end Sys2Proof
end

