-- ==== Sys2Proof/Tests/Slice0.lean ====
section
/-! SUPPORT. Tests: well-formedness, decoding of words written out bit by bit, one step of each instruction (expected values
from spec/95_test_vectors.md, vector ids in the docstrings), and a witness for each obligation that has hypotheses. -/

namespace Sys2Proof.Tests

open Sys2Proof.Machine

/-! ## Small machines -/

/-- The reset machine with a word where its next Step fetches it and some V registers set. -/
def start (w : Nat) (regs : List (Reg × Byte)) : State :=
  regs.foldl (fun s r => s.writeV r.1 r.2) (State.reset.withFetchWord 16 w)

/-- The outcome is a next state with the property. -/
def holdsAfter (r : Result) (p : State → Bool) : Bool :=
  match r with
  | .next t => p t
  | .fault _ => false
  | .refused _ => false

/-- The last Step returned this status and beep. -/
def returned (t : State) (status : Status) (beep : Bool) : Bool := t.out == some ⟨status, beep⟩

/-- The stack filled with `a` in the n lowest slots. -/
def withStack (s : State) (n : Fin 17) (a : Word) : State := { s with stack := Vector.replicate 16 a, sp := n }

/-- One key pressed. -/
def pressing (s : State) (k : Fin 16) : State := { s with keys := s.keys.set k true }

/-! ## WellFormed refuses ill-formed operand fields -/

theorem test_wellFormed_accepts : Field.wellFormed [⟨11, 8, 15⟩, ⟨7, 4, 15⟩, ⟨3, 0, 15⟩] = true := by decide
theorem test_wellFormed_refuses_value_too_big : Field.wellFormed [⟨11, 8, 16⟩] = false := by decide
theorem test_wellFormed_refuses_address_too_big : Field.wellFormed [⟨11, 0, 4096⟩] = false := by decide
theorem test_wellFormed_refuses_family_nibble : Field.wellFormed [⟨15, 12, 1⟩] = false := by decide
theorem test_wellFormed_refuses_empty_field : Field.wellFormed [⟨3, 4, 0⟩] = false := by decide
theorem test_wellFormed_refuses_overlap : Field.wellFormed [⟨11, 8, 0⟩, ⟨8, 4, 0⟩] = false := by decide

/-! ## Decoding: each pattern's word written out from its row of 30_encoding.md R110 -/

theorem test_decode_00E0 : decodeWord 0b0000000011100000#16 = .known .op00E0 := by decide
theorem test_decode_00EE : decodeWord 0b0000000011101110#16 = .known .op00EE := by decide
theorem test_decode_1NNN : decodeWord 0b0001001000110100#16 = .known (.op1NNN 0x234) := by decide
theorem test_decode_2NNN : decodeWord 0b0010111111111111#16 = .known (.op2NNN 0xFFF) := by decide
theorem test_decode_3XNN : decodeWord 0b0011001000010000#16 = .known (.op3XNN 2 0x10) := by decide
theorem test_decode_4XNN : decodeWord 0b0100111100000001#16 = .known (.op4XNN 15 0x01) := by decide
theorem test_decode_5XY0 : decodeWord 0b0101000100100000#16 = .known (.op5XY0 1 2) := by decide
theorem test_decode_6XNN : decodeWord 0b0110101001000010#16 = .known (.op6XNN 10 0x42) := by decide
theorem test_decode_7XNN : decodeWord 0b0111000011111110#16 = .known (.op7XNN 0 0xFE) := by decide
theorem test_decode_8XY0 : decodeWord 0b1000000100100000#16 = .known (.op8XY0 1 2) := by decide
theorem test_decode_8XY1 : decodeWord 0b1000001000010001#16 = .known (.op8XY1 2 1) := by decide
theorem test_decode_8XY2 : decodeWord 0b1000000111110010#16 = .known (.op8XY2 1 15) := by decide
theorem test_decode_8XY3 : decodeWord 0b1000111100010011#16 = .known (.op8XY3 15 1) := by decide
theorem test_decode_8XY4 : decodeWord 0b1000000000010100#16 = .known (.op8XY4 0 1) := by decide
theorem test_decode_8XY5 : decodeWord 0b1000000000010101#16 = .known (.op8XY5 0 1) := by decide
theorem test_decode_8XY6 : decodeWord 0b1000010001010110#16 = .known (.op8XY6 4 5) := by decide
theorem test_decode_8XY7 : decodeWord 0b1000000000010111#16 = .known (.op8XY7 0 1) := by decide
theorem test_decode_8XYE : decodeWord 0b1000011001111110#16 = .known (.op8XYE 6 7) := by decide
theorem test_decode_9XY0 : decodeWord 0b1001000100100000#16 = .known (.op9XY0 1 2) := by decide
theorem test_decode_ANNN : decodeWord 0b1010001011110000#16 = .known (.opANNN 0x2F0) := by decide
theorem test_decode_BNNN : decodeWord 0b1011010111111110#16 = .known (.opBNNN 0x5FE) := by decide
theorem test_decode_CXNN : decodeWord 0b1100001100001111#16 = .known (.opCXNN 3 0x0F) := by decide
theorem test_decode_DXYN : decodeWord 0b1101000100100101#16 = .known (.opDXYN 1 2 5) := by decide
theorem test_decode_EX9E : decodeWord 0b1110000110011110#16 = .known (.opEX9E 1) := by decide
theorem test_decode_EXA1 : decodeWord 0b1110111110100001#16 = .known (.opEXA1 15) := by decide
theorem test_decode_FX07 : decodeWord 0b1111001100000111#16 = .known (.opFX07 3) := by decide
theorem test_decode_FX0A : decodeWord 0b1111010100001010#16 = .known (.opFX0A 5) := by decide
theorem test_decode_FX15 : decodeWord 0b1111000000010101#16 = .known (.opFX15 0) := by decide
theorem test_decode_FX18 : decodeWord 0b1111000100011000#16 = .known (.opFX18 1) := by decide
theorem test_decode_FX1E : decodeWord 0b1111001000011110#16 = .known (.opFX1E 2) := by decide
theorem test_decode_FX29 : decodeWord 0b1111101000101001#16 = .known (.opFX29 10) := by decide
theorem test_decode_FX33 : decodeWord 0b1111010000110011#16 = .known (.opFX33 4) := by decide
theorem test_decode_FX55 : decodeWord 0b1111011101010101#16 = .known (.opFX55 7) := by decide
theorem test_decode_FX65 : decodeWord 0b1111111101100101#16 = .known (.opFX65 15) := by decide

/-- One word of each group of R111 is no instruction. -/
theorem test_decode_unknown_words :
    [0x0000#16, 0x0123#16, 0x00E1#16, 0x5121#16, 0x9121#16, 0x8008#16, 0x800F#16, 0xE000#16, 0xE19F#16, 0xF0FF#16,
      0xF066#16].all (fun w => decodeWord w == .unknown w) = true := by decide

/-- The first byte is the high byte of the word, and fewer than two bytes are no instruction. -/
theorem test_decode_bytes :
    (decode [0x12, 0x34, 0x56] matches .ok (.op1NNN 0x234, [0x56])) = true ∧
      (decode [0x12] matches .error .truncated) = true ∧
      (decode [0x51, 0x21] matches .error (.unknownOpcode 0x5121)) = true := by decide

theorem test_encode_bytes : encode (.op1NNN 0x234) = [0x12, 0x34] ∧ encode (.opDXYN 1 2 5) = [0xD1, 0x25] := by decide

theorem test_decodeTableWord :
    decodeTableWord 16 0x8014 = some (.op8XY4 0 1) ∧ decodeTableWord 16 0x5121 = none := by decide

/-- No word matches two rows of the opcode map: where both masks look, two rows differ. -/
theorem test_opcode_rows_do_not_overlap :
    opcodeTable.Pairwise (fun q r => q.value &&& (q.mask &&& r.mask) ≠ r.value &&& (q.mask &&& r.mask)) := by decide

/-- The codes of R412. -/
theorem test_codes :
    [Status.ok, .waiting, .unknownOpcode 0, .fatal ⟨.stackOverflow, 0, none⟩, .halted ⟨.stackOverflow, 0, none⟩].map
        Status.code = [0, 1, 2, 3, 4] ∧
      [FatalReason.stackOverflow, .stackUnderflow, .addressOutOfRange, .keyIndexOutOfRange].map FatalReason.code
        = [1, 2, 3, 4] ∧
      [LoadResult.ok, .programTooLarge, .sourceUnavailable].map LoadResult.code = [0, 1, 2] := by decide

/-! ## Control flow -/

/-- F1 -/
theorem test_00EE_returns_past_the_call :
    holdsAfter (step (withStack (start 0x00EE []) 1 0x204)) (fun t =>
      t.pc == 0x206 && t.sp == 0 && t.stack[0] == 0x204 && returned t .ok false) = true := by decide
/-- F2, C11 -/
theorem test_00EE_underflow :
    holdsAfter (step { start 0x00EE [] with DT := 3, ST := 1 }) (fun t =>
      t.pc == 0x200 && t.mode == .halted ⟨.stackUnderflow, 0x200, some 0x00EE⟩ && t.DT == 3 && t.ST == 1 &&
        returned t (.fatal ⟨.stackUnderflow, 0x200, some 0x00EE⟩) false) = true := by decide
/-- F5 -/
theorem test_1NNN : holdsAfter (step (start 0x1234 [])) (fun t => t.pc == 0x234 && returned t .ok false) = true := by decide
/-- F9 -/
theorem test_2NNN_last_slot :
    holdsAfter (step (withStack (start 0x2300 []) 15 0)) (fun t =>
      t.pc == 0x300 && t.sp == 16 && t.stack[15] == 0x200 && t.stack[14] == 0) = true := by decide
/-- F10 -/
theorem test_2NNN_overflow :
    holdsAfter (step (withStack (start 0x2300 []) 16 0x200)) (fun t =>
      t.pc == 0x200 && t.sp == 16 && t.mode == .halted ⟨.stackOverflow, 0x200, some 0x2300⟩) = true := by decide
/-- F11 -/
theorem test_3XNN_skips : holdsAfter (step (start 0x3210 [(2, 0x10)])) (fun t => t.pc == 0x204) = true := by decide
/-- F12 -/
theorem test_3XNN_goes_on : holdsAfter (step (start 0x3211 [(2, 0x10)])) (fun t => t.pc == 0x202) = true := by decide
/-- F13 -/
theorem test_4XNN_goes_on : holdsAfter (step (start 0x4210 [(2, 0x10)])) (fun t => t.pc == 0x202) = true := by decide
/-- F14 -/
theorem test_4XNN_skips : holdsAfter (step (start 0x4211 [(2, 0x10)])) (fun t => t.pc == 0x204) = true := by decide
/-- F16 -/
theorem test_5XY0_skips : holdsAfter (step (start 0x5120 [(1, 7), (2, 7)])) (fun t => t.pc == 0x204) = true := by decide
/-- F17 -/
theorem test_5XY0_goes_on : holdsAfter (step (start 0x5120 [(1, 7), (2, 8)])) (fun t => t.pc == 0x202) = true := by decide
/-- F19 -/
theorem test_9XY0_skips : holdsAfter (step (start 0x9120 [(1, 7), (2, 8)])) (fun t => t.pc == 0x204) = true := by decide
/-- F20 -/
theorem test_9XY0_goes_on : holdsAfter (step (start 0x9120 [(1, 7), (2, 7)])) (fun t => t.pc == 0x202) = true := by decide
/-- F24 -/
theorem test_BNNN_does_not_wrap : holdsAfter (step (start 0xBFFF [(0, 0xFF)])) (fun t => t.pc == 0x10FE) = true := by decide
/-- F25 -/
theorem test_BNNN_reads_V0 :
    holdsAfter (step (start 0xB5FE [(0, 1), (5, 0x77)])) (fun t => t.pc == 0x5FF) = true := by decide

/-! ## ALU -/

/-- A1 -/
theorem test_6XNN : holdsAfter (step (start 0x6A42 [])) (fun t => t.readV 10 == 0x42 && t.pc == 0x202) = true := by decide
/-- A3 -/
theorem test_7XNN_wraps_without_flag :
    holdsAfter (step (start 0x70FF [(0, 0x10), (15, 5)])) (fun t => t.readV 0 == 0x0F && t.readV 15 == 5) = true := by decide
/-- A4 -/
theorem test_7XNN_VF_is_destination : holdsAfter (step (start 0x7F01 [(15, 0xFF)])) (fun t => t.readV 15 == 0) = true := by decide
/-- A5 -/
theorem test_8XY0 : holdsAfter (step (start 0x8010 [(1, 0x33)])) (fun t => t.readV 0 == 0x33 && t.readV 1 == 0x33) = true := by
  decide
/-- A6 -/
theorem test_8XY1_keeps_VF :
    holdsAfter (step (start 0x8011 [(0, 0x0F), (1, 0xF0), (15, 7)])) (fun t => t.readV 0 == 0xFF && t.readV 15 == 7) = true := by
  decide
/-- A7 -/
theorem test_8XY2 : holdsAfter (step (start 0x8012 [(0, 0x3C), (1, 0x0F)])) (fun t => t.readV 0 == 0x0C) = true := by decide
/-- A8 -/
theorem test_8XY3 : holdsAfter (step (start 0x8013 [(0, 0x3C), (1, 0x0F)])) (fun t => t.readV 0 == 0x33) = true := by decide
/-- A13 -/
theorem test_8XY4_doubles : holdsAfter (step (start 0x8004 [(0, 0xC8)])) (fun t => t.readV 0 == 0x90 && t.readV 15 == 1) = true := by
  decide
/-- A11 -/
theorem test_8XY4_no_carry_at_255 :
    holdsAfter (step (start 0x8014 [(0, 0xFF), (15, 1)])) (fun t => t.readV 0 == 0xFF && t.readV 15 == 0) = true := by decide
/-- A19 -/
theorem test_8XY5_borrow :
    holdsAfter (step (start 0x8015 [(0, 3), (1, 5), (15, 1)])) (fun t => t.readV 0 == 0xFE && t.readV 15 == 0) = true := by decide
/-- A20 -/
theorem test_8XY5_equal_is_not_greater :
    holdsAfter (step (start 0x8015 [(0, 5), (1, 5), (15, 1)])) (fun t => t.readV 0 == 0 && t.readV 15 == 0) = true := by decide
/-- A31 -/
theorem test_8XY6 : holdsAfter (step (start 0x8006 [(0, 5)])) (fun t => t.readV 0 == 2 && t.readV 15 == 1) = true := by decide
/-- A33 -/
theorem test_8XY6_ignores_Y :
    holdsAfter (step (start 0x8016 [(0, 0xFE), (1, 1), (15, 1)])) (fun t => t.readV 0 == 0x7F && t.readV 15 == 0) = true := by
  decide
/-- A26 -/
theorem test_8XY7 : holdsAfter (step (start 0x8017 [(0, 3), (1, 5)])) (fun t => t.readV 0 == 2 && t.readV 15 == 1) = true := by
  decide
/-- A27 -/
theorem test_8XY7_borrow :
    holdsAfter (step (start 0x8017 [(0, 5), (1, 3), (15, 1)])) (fun t => t.readV 0 == 0xFE && t.readV 15 == 0) = true := by decide
/-- A35 -/
theorem test_8XYE : holdsAfter (step (start 0x800E [(0, 0x81)])) (fun t => t.readV 0 == 2 && t.readV 15 == 1) = true := by decide
/-- A37 -/
theorem test_8XYE_ignores_Y :
    holdsAfter (step (start 0x802E [(0, 0x7F), (2, 0xFF), (15, 1)])) (fun t => t.readV 0 == 0xFE && t.readV 15 == 0) = true := by
  decide
/-- A40: whatever byte is drawn, only the bits of NN come through. -/
theorem test_CXNN_masks_the_draw :
    step (start 0xC00F []) = .next { start 0xC00F [] with
      V := (start 0xC00F []).V.set 0 (Config.randomByte 0 &&& 0x0F), pc := 0x202, draws := 1, out := some ⟨.ok, false⟩ } := by
  rfl

/-! ## Index register and memory -/

/-- M1 -/
theorem test_ANNN : holdsAfter (step (start 0xA2F0 [])) (fun t => t.I == 0x2F0 && t.pc == 0x202) = true := by decide
/-- M4 -/
theorem test_FX1E_wraps_without_flag :
    holdsAfter (step { start 0xF01E [(0, 0xFF)] with I := 0xF80 }) (fun t => t.I == 0x07F && t.readV 15 == 0) = true := by decide
/-- M5 -/
theorem test_FX29 : holdsAfter (step (start 0xF029 [(0, 0x0A)])) (fun t => t.I == 0x032) = true := by decide
/-- M7 -/
theorem test_FX29_does_not_mask : holdsAfter (step (start 0xF029 [(0, 0xFF)])) (fun t => t.I == 0x4FB) = true := by decide
/-- M10 -/
theorem test_FX33 :
    holdsAfter (step { start 0xF033 [(0, 0x7B)] with I := 0x300 }) (fun t =>
      t.memRead 0x300 == 1 && t.memRead 0x301 == 2 && t.memRead 0x302 == 3 && t.memRead 0x303 == 0) = true := by decide
/-- M12 -/
theorem test_FX33_past_the_end :
    holdsAfter (step { start 0xF033 [(0, 9)] with I := 0xFFE }) (fun t =>
      t.memRead 0xFFF == 0 && t.mode == .halted ⟨.addressOutOfRange, 0x200, some 0xF033⟩) = true := by decide
/-- M15 -/
theorem test_FX55_to_the_end :
    holdsAfter (step { start 0xFF55 [(0, 0x11), (15, 0x5F)] with I := 0xFF0 }) (fun t =>
      t.memRead 0xFF0 == 0x11 && t.memRead 0xFFF == 0x5F && t.I == 0xFF0) = true := by decide
/-- M16 -/
theorem test_FX55_past_the_end :
    holdsAfter (step { start 0xFF55 [(0, 0x11)] with I := 0xFF1 }) (fun t =>
      t.memRead 0xFF1 == 0 && t.mode == .halted ⟨.addressOutOfRange, 0x200, some 0xFF55⟩) = true := by decide
/-- M20 -/
theorem test_FX65_reads_the_glyph_table :
    holdsAfter (step (start 0xFF65 [])) (fun t =>
      t.V.toList == [0xF0, 0x90, 0x90, 0x90, 0xF0, 0x20, 0x60, 0x20, 0x20, 0x70, 0xF0, 0x10, 0xF0, 0x80, 0xF0, 0xF0]) = true := by
  decide
/-- M19 -/
theorem test_FX65_past_the_end :
    holdsAfter (step { start 0xF165 [] with I := 0xFFF }) (fun t =>
      t.mode == .halted ⟨.addressOutOfRange, 0x200, some 0xF165⟩) = true := by decide

/-! ## Display -/

/-- D1 -/
theorem test_00E0 :
    holdsAfter (step { start 0x00E0 [(15, 5)] with gfx := (Frame.clear.flip 0).flip 2047 }) (fun t =>
      t.gfx == Frame.clear && t.drawFlag && t.readV 15 == 5) = true := by decide
/-- D5 -/
theorem test_DXYN_wraps :
    holdsAfter (step ((start 0xD011 [(0, 60), (1, 31)]).memWrite 0x300 0xFF |>.writeI 0x300) ) (fun t =>
      t.gfx == [2044, 2045, 2046, 2047, 1984, 1985, 1986, 1987].foldl Frame.flip Frame.clear && t.drawFlag &&
        t.readV 15 == 0) = true := by decide
/-- D12: the x coordinate is VF as it stood before the flag write. -/
theorem test_DXYN_reads_VF_before_the_flag :
    holdsAfter (step ((start 0xDF11 [(15, 2), (1, 1)]).memWrite 0x300 0x80 |>.writeI 0x300)) (fun t =>
      t.gfx == Frame.clear.flip 66 && t.readV 15 == 0) = true := by decide

/-! ## Keys and timers -/

/-- K1 -/
theorem test_EX9E_skips : holdsAfter (step (pressing (start 0xE19E [(1, 5)]) 5)) (fun t => t.pc == 0x204) = true := by decide
/-- K5 -/
theorem test_EX9E_key_index_out_of_range :
    holdsAfter (step (start 0xE19E [(1, 0x10)])) (fun t =>
      t.mode == .halted ⟨.keyIndexOutOfRange, 0x200, some 0xE19E⟩) = true := by decide
/-- K3 -/
theorem test_EXA1_skips : holdsAfter (step (start 0xE1A1 [(1, 5)])) (fun t => t.pc == 0x204) = true := by decide
/-- K6 -/
theorem test_EXA1_key_index_is_not_masked :
    holdsAfter (step (pressing (start 0xE1A1 [(1, 0x10)]) 0)) (fun t =>
      t.mode == .halted ⟨.keyIndexOutOfRange, 0x200, some 0xE1A1⟩) = true := by decide
/-- K11 -/
theorem test_FX07_reads_before_the_decrement :
    holdsAfter (step { start 0xF307 [] with DT := 5 }) (fun t => t.readV 3 == 5 && t.DT == 4) = true := by decide
/-- K10 -/
theorem test_FX0A_waits_with_timers_running :
    holdsAfter (step { start 0xF50A [] with DT := 4, ST := 3 }) (fun t =>
      t.pc == 0x200 && t.DT == 3 && t.ST == 2 && t.mode == .awaitingKey 5 && returned t .waiting false) = true := by decide
/-- K8 -/
theorem test_FX0A_takes_the_pressed_key :
    holdsAfter (step (pressing (start 0xF50A []) 0xB)) (fun t => t.readV 5 == 0x0B && t.pc == 0x202) = true := by decide
/-- K9: with keys 3 and 9 pressed either may be reported. -/
theorem test_FX0A_choice : chooseKey 0 3 [9] = 3 ∧ chooseKey 1 3 [9] = 9 ∧ chooseKey 2 3 [9] = 3 := by decide
/-- K13 -/
theorem test_FX15 : holdsAfter (step (start 0xF015 [(0, 3)])) (fun t => t.DT == 2 && t.pc == 0x202) = true := by decide
/-- K16 -/
theorem test_FX18_beeps_in_its_step :
    holdsAfter (step (start 0xF018 [(0, 1)])) (fun t => t.ST == 0 && returned t .ok true) = true := by decide
/-- K17 -/
theorem test_FX18_of_zero_does_not_beep :
    holdsAfter (step { start 0xF018 [] with ST := 5 }) (fun t => t.ST == 0 && returned t .ok false) = true := by decide

/-! ## The cycle and the host's transactions -/

/-- C3 -/
theorem test_cycle_unknown_word :
    holdsAfter (step { start 0x5121 [] with DT := 1, ST := 1 }) (fun t =>
      t.pc == 0x202 && t.DT == 0 && t.ST == 0 && returned t (.unknownOpcode 0x5121) true) = true := by decide
/-- C8 -/
theorem test_cycle_fetch_past_the_end :
    holdsAfter (step { State.reset with pc := 0xFFF }) (fun t =>
      t.pc == 0xFFF && t.mode == .halted ⟨.addressOutOfRange, 0xFFF, none⟩) = true := by decide
/-- C9 -/
theorem test_cycle_last_fetchable_word :
    holdsAfter (step ({ State.reset with pc := 0xFFE }.withFetchWord 16 0x6012)) (fun t =>
      t.readV 0 == 0x12 && t.pc == 0x1000) = true := by decide
/-- C12 -/
theorem test_cycle_halted :
    holdsAfter (step { start 0x6012 [] with mode := .halted ⟨.stackUnderflow, 0x200, some 0x00EE⟩, DT := 3 }) (fun t =>
      t.DT == 3 && t.pc == 0x200 && returned t (.halted ⟨.stackUnderflow, 0x200, some 0x00EE⟩) false) = true := by decide
/-- H4 -/
theorem test_reset_keeps_keys_and_reloads_glyphs :
    let s := ((pressing (start 0x2200 [(3, 0x12)]) 4).memWrite 0x300 0x99).memWrite 0x010 0x00
    let t := resetTx { s with DT := 7, drawFlag := true, mode := .halted ⟨.stackOverflow, 0x200, some 0x2200⟩ }
    t = pressing State.reset 4 ∧ t.memRead 0x010 = 0x10 := by decide
/-- H6 -/
theorem test_load_does_not_leave_halted :
    let s := { State.reset with mode := .halted ⟨.addressOutOfRange, 0xFFF, none⟩ }
    let t := (loadTx s [0x12, 0x00]).1
    t.memRead 0x200 = 0x12 ∧ t.memRead 0x201 = 0 ∧ t.mode = s.mode ∧ (loadTx s [0x12, 0x00]).2 = .ok := by decide

/-! ## Witnesses: a concrete state and operands that meet the hypotheses of each obligation, at the ends of their ranges -/

theorem witness_EncodeOfDecodeIsTheWord :
    decodeWord 0x8A56 = .known (.op8XY6 10 5) ∧
      (decode [0x8A, 0x56, 0x00] matches .ok (.op8XY6 10 5, [0x00])) = true := by decide

theorem witness_KnownWordsAreTheRowsOfTheMap :
    (decodeWord 0xFF65 = .known (.opFX65 15) ∧ (Instr.opFX65 15).row ∈ opcodeTable ∧
      (Instr.opFX65 15).row.matchesWord 0xFF65 = true) ∧
    ∃ r ∈ opcodeTable, r.matchesWord 0x00E0 = true := by decide

theorem witness_SubDispatchOfFamilies8EF :
    (bits 0x8AB0 15 12 = 0x8 ∧ bits 0x8AB0 3 0 = 0x0) ∧ (bits 0x8ABE 15 12 = 0x8 ∧ bits 0x8ABE 3 0 = 0xE) ∧
    (bits 0x8ABF 15 12 = 0x8 ∧ bits 0x8ABF 3 0 ∈ [0x8, 0x9, 0xA, 0xB, 0xC, 0xD, 0xF]) ∧
    (bits 0xEF9E 15 12 = 0xE ∧ bits 0xEF9E 7 0 = 0x9E) ∧ (bits 0xEFA1 15 12 = 0xE ∧ bits 0xEFA1 7 0 = 0xA1) ∧
    (bits 0xEF9F 15 12 = 0xE ∧ bits 0xEF9F 7 0 ∉ [0x9E, 0xA1]) ∧
    (bits 0xF007 15 12 = 0xF ∧ bits 0xF007 7 0 = 0x07) ∧ (bits 0xF065 15 12 = 0xF ∧ bits 0xF065 7 0 = 0x65) ∧
    (bits 0xF066 15 12 = 0xF ∧ bits 0xF066 7 0 ∉ [0x07, 0x0A, 0x15, 0x18, 0x1E, 0x29, 0x33, 0x55, 0x65]) := by decide

/-- One word of each group, the ends of family 0 among them, and two words beside them that are instructions. -/
theorem witness_UnknownWordsAreTheFiveGroups :
    [0x0000#16, 0x0FFF#16, 0x00EF#16, 0x5FF1#16, 0x9001#16, 0x8008#16, 0xEF00#16, 0xFFFF#16].all
      (fun w => decodeWord w == .unknown w) = true ∧
    decodeWord 0x00E0 ≠ .unknown 0x00E0 ∧ decodeWord 0x5FF0 ≠ .unknown 0x5FF0 := by decide

theorem witness_OperandsAreTheBitsAtTheirPositions :
    decodeWord 0xDEAF = .known (.opDXYN 0xE 0xA 0xF) ∧ (Instr.opDXYN 0xE 0xA 0xF).fields.length = 3 := by decide

/-- One machine for each end of an execute phase: done at the last fetchable pc, waiting, and fatal. -/
theorem witness_StepRunsTheDecodedInstruction :
    (let s := { State.reset with pc := 0xFFE }.withFetchWord 16 0x6012
     s.mode.isHalted = false ∧ s.pc.toNat + 1 ≤ 0xFFF ∧
       decodeWord (wordOfBytes (s.memRead s.pc.toNat) (s.memRead (s.pc.toNat + 1))) = .known (.op6XNN 0 0x12) ∧
       holdsAfter (exec (.op6XNN 0 0x12) s) (fun t => t.mode == .running) = true) ∧
    (let s := start 0xF50A []
     s.mode.isHalted = false ∧ s.nextInstr = some (.opFX0A 5) ∧
       holdsAfter (exec (.opFX0A 5) s) (fun t => t.mode == .awaitingKey 5) = true) ∧
    (let s := start 0x00EE []
     s.mode.isHalted = false ∧ s.nextInstr = some .op00EE ∧
       holdsAfter (exec .op00EE s) (fun t => t.mode.isHalted) = true) := by decide

theorem witness_FetchReadsBigEndianOrFails :
    (let s := { State.reset with pc := 0xFFF }
     0xFFF < s.pc.toNat + 1 ∧ s.mode.isHalted = false) ∧
    (let s := { State.reset with pc := 0xFFE }
     s.pc.toNat + 1 ≤ 0xFFF) := by decide

theorem witness_UnknownWordIsReportedAndSkipped :
    let s := { start 0x0123 [] with mode := .awaitingKey 3 }
    s.mode.isHalted = false ∧ s.fetch = some 0x0123 ∧ decodeWord 0x0123 = .unknown 0x0123 := by decide

theorem witness_HaltedStepChangesNothing :
    ({ State.reset with mode := .halted ⟨.stackOverflow, 0x200, some 0x2200⟩ } : State).mode =
      .halted ⟨.stackOverflow, 0x200, some 0x2200⟩ := by decide

theorem witness_FatalStepIsPrecise :
    holdsAfter (step (withStack (start 0x2300 []) 16 0x200)) (fun t =>
      returned t (.fatal ⟨.stackOverflow, 0x200, some 0x2300⟩) false) = true := by decide

/-- A live machine at the first value of each cause. -/
theorem witness_FatalReasonsMatchTheirCauses :
    (let s := withStack (start 0x2300 []) 16 0x200
     s.mode.isHalted = false ∧ s.nextInstr = some (.op2NNN 0x300) ∧ s.sp.val = 16) ∧
    (let s := start 0x00EE []
     s.mode.isHalted = false ∧ s.nextInstr = some .op00EE ∧ s.sp.val = 0) ∧
    (let s := { State.reset with pc := 0xFFF }
     s.mode.isHalted = false ∧ s.fetch = none) ∧
    (let s := { start 0xD012 [] with I := 0xFFF }
     s.nextInstr = some (.opDXYN 0 1 2) ∧ 0xFFF < s.I.toNat + 2 - 1) ∧
    (let s := { start 0xF033 [] with I := 0xFFE }
     s.nextInstr = some (.opFX33 0) ∧ 0xFFF < s.I.toNat + 2) ∧
    (let s := { start 0xF155 [] with I := 0xFFF }
     s.nextInstr = some (.opFX55 1) ∧ 0xFFF < s.I.toNat + 1) ∧
    (let s := { start 0xF165 [] with I := 0xFFF }
     s.nextInstr = some (.opFX65 1) ∧ 0xFFF < s.I.toNat + 1) ∧
    (let s := start 0xE19E [(1, 16)]
     s.nextInstr = some (.opEX9E 1) ∧ 15 < (s.readV 1).toNat) ∧
    (let s := start 0xE1A1 [(1, 16)]
     s.nextInstr = some (.opEXA1 1) ∧ 15 < (s.readV 1).toNat) := by decide

/-- One Step for each way pc moves; the last is the return to the address of the 00EE itself (assumption 8). -/
theorem witness_NewPcIsNextSkipOrTarget :
    holdsAfter (step (start 0x6012 [])) (fun t => t.pc == 0x202) = true ∧
    holdsAfter (step (start 0x3000 [])) (fun t => t.pc == 0x204) = true ∧
    holdsAfter (step (start 0x1200 [])) (fun t => t.pc == 0x200) = true ∧
    holdsAfter (step (start 0xBFFF [(0, 0xFF)])) (fun t => t.pc == 0x10FE) = true ∧
    holdsAfter (step (start 0xF50A [])) (fun t => t.pc == 0x200) = true ∧
    holdsAfter (step (withStack (start 0x00EE []) 1 0x1FE)) (fun t => t.pc == 0x200) = true := by decide

theorem witness_DelayTimerCountsDownOncePerStep :
    (let s := start 0xF015 [(0, 3)]
     s.mode.isHalted = false ∧ s.nextInstr = some (.opFX15 0) ∧ holdsAfter (step s) (fun t => !t.mode.isHalted) = true) ∧
    (let s := { start 0xF307 [] with DT := 1 }
     s.mode.isHalted = false ∧ s.nextInstr = some (.opFX07 3) ∧
       holdsAfter (step s) (fun t => !t.mode.isHalted && t.DT == 0) = true) := by decide

theorem witness_SoundTimerBeepsOnTheStepFromOneToZero :
    (let s := start 0xF018 [(0, 1)]
     s.mode.isHalted = false ∧ s.nextInstr = some (.opFX18 0) ∧
       holdsAfter (step s) (fun t => !t.mode.isHalted && t.beeped) = true) ∧
    (let s := { start 0x6000 [] with ST := 1 }
     s.mode.isHalted = false ∧ holdsAfter (step s) (fun t => !t.mode.isHalted && t.beeped) = true) ∧
    holdsAfter (step { start 0x00EE [] with ST := 1 }) (fun t => t.mode.isHalted && !t.beeped) = true := by decide

theorem witness_ModeTransitionsAreTheListed :
    holdsAfter (step { State.reset with mode := .halted ⟨.stackOverflow, 0x200, some 0x2200⟩ }) (fun t =>
      t.mode == .halted ⟨.stackOverflow, 0x200, some 0x2200⟩) = true ∧
    ({ start 0xF50A [] with mode := .awaitingKey 5 } : State).mode.isHalted = false ∧
    holdsAfter (step { start 0xF50A [] with mode := .awaitingKey 5 }) (fun t => t.mode == .awaitingKey 5) = true := by decide

theorem witness_AwaitingKeyStepsAsRunning :
    ({ start 0xF50A [] with mode := .awaitingKey 5 } : State).mode = .awaitingKey 5 := by decide

theorem witness_ParkedStateOnlyCountsTimersDown : (start 0x1200 []).parked :=
  ⟨by decide, 0x200, by decide, by decide⟩

/-- The beep falls within two Steps of a parked machine, and k = 0 asks nothing. -/
theorem witness_TimersReachZeroAndBeepOnce :
    let s := { start 0x1200 [] with DT := 1, ST := 2 }
    s.mode.isHalted = false ∧ timersUnwritten 0 s ∧ timersUnwritten 2 s := by
  refine ⟨by decide, trivial, ?_⟩
  refine ⟨fun x => ?_, { start 0x1200 [] with DT := 0, ST := 1, out := some ⟨.ok, false⟩ }, rfl, rfl,
    fun x => ?_, { start 0x1200 [] with DT := 0, ST := 0, out := some ⟨.ok, true⟩ }, rfl, rfl, trivial⟩
  · revert x; decide
  · revert x; decide

theorem witness_ReturnGoesPastTheCall :
    (0 : Fin 16).val + 1 = (withStack (start 0x00EE []) 1 0x204).sp.val ∧
    (15 : Fin 16).val + 1 = (withStack (start 0x00EE []) 16 0x204).sp.val ∧ (start 0x00EE []).sp.val = 0 := by decide

theorem witness_JumpGoesToItsAddress : holdsAfter (exec (.op1NNN 0xFFF) State.reset) (fun t => t.pc == 0xFFF) = true := by
  decide

theorem witness_CallPushesItsOwnAddress :
    (0 : Fin 16).val = (start 0x2300 []).sp.val ∧ (15 : Fin 16).val = (withStack (start 0x2300 []) 15 0).sp.val ∧
    (withStack (start 0x2300 []) 16 0).sp.val = 16 := by decide

/-- The call of 0x300 with a 00EE stored there, with the stack empty and with its last slot free. -/
theorem witness_CallThenReturnRoundTrip :
    let s := (start 0x2300 []).memWriteList 0x300 [0x00, 0xEE]
    s.mode.isHalted = false ∧ s.nextInstr = some (.op2NNN 0x300) ∧ (0 : Fin 16).val = s.sp.val ∧
      (15 : Fin 16).val = (withStack s 15 0).sp.val ∧ (0x300 : Addr).toNat + 1 ≤ 0xFFF ∧
      s.memRead (0x300 : Addr).toNat = 0x00 ∧ s.memRead ((0x300 : Addr).toNat + 1) = 0xEE := by decide

/-- The clauses of 8XY4 by which operand is VF: A10, A15, A16, A17. -/
theorem witness_AddWritesCarryThenSum :
    holdsAfter (exec (.op8XY4 0 1) (start 0x8014 [(0, 0xFF), (1, 1)])) (fun t => t.readV 0 == 0 && t.readV 15 == 1) = true ∧
    holdsAfter (exec (.op8XY4 15 1) (start 0x8F14 [(15, 0xFF), (1, 1)])) (fun t => t.readV 15 == 2) = true ∧
    holdsAfter (exec (.op8XY4 1 15) (start 0x81F4 [(1, 0x10), (15, 0xF5)])) (fun t =>
      t.readV 1 == 0x11 && t.readV 15 == 1) = true ∧
    holdsAfter (exec (.op8XY4 15 15) (start 0x8FF4 [(15, 0x80)])) (fun t => t.readV 15 == 2) = true := by decide

/-- The clauses of 8XY5 by which operand is VF: A18, A23, A24, A25. -/
theorem witness_SubtractWritesStrictFlagThenDifference :
    holdsAfter (exec (.op8XY5 0 1) (start 0x8015 [(0, 5), (1, 3)])) (fun t => t.readV 0 == 2 && t.readV 15 == 1) = true ∧
    holdsAfter (exec (.op8XY5 15 1) (start 0x8F15 [(15, 0x10), (1, 3)])) (fun t => t.readV 15 == 0xFE) = true ∧
    holdsAfter (exec (.op8XY5 1 15) (start 0x81F5 [(1, 0x10), (15, 3)])) (fun t =>
      t.readV 1 == 0x0F && t.readV 15 == 1) = true ∧
    holdsAfter (exec (.op8XY5 15 15) (start 0x8FF5 [(15, 0x42)])) (fun t => t.readV 15 == 0) = true := by decide

/-- The clauses of 8XY7 by which operand is VF: A28, A29, A30, and X = Y = F. -/
theorem witness_ReverseSubtractWritesStrictFlagThenDifference :
    holdsAfter (exec (.op8XY7 0 1) (start 0x8017 [(0, 5), (1, 5), (15, 1)])) (fun t =>
      t.readV 0 == 0 && t.readV 15 == 0) = true ∧
    holdsAfter (exec (.op8XY7 15 1) (start 0x8F17 [(15, 3), (1, 0x10)])) (fun t => t.readV 15 == 0x0F) = true ∧
    holdsAfter (exec (.op8XY7 1 15) (start 0x81F7 [(1, 2), (15, 0x10)])) (fun t =>
      t.readV 1 == 0xFF && t.readV 15 == 1) = true ∧
    holdsAfter (exec (.op8XY7 15 15) (start 0x8FF7 [(15, 0x42)])) (fun t => t.readV 15 == 0) = true := by decide

/-- The clauses of the shifts by whether X is F: A32, A34, A36, A38. -/
theorem witness_ShiftsWriteTheBitShiftedOut :
    holdsAfter (exec (.op8XY6 0 0) (start 0x8006 [(0, 1)])) (fun t => t.readV 0 == 0 && t.readV 15 == 1) = true ∧
    holdsAfter (exec (.op8XY6 15 0) (start 0x8F06 [(15, 3)])) (fun t => t.readV 15 == 0) = true ∧
    holdsAfter (exec (.op8XYE 0 0) (start 0x800E [(0, 0x80)])) (fun t => t.readV 0 == 0 && t.readV 15 == 1) = true ∧
    holdsAfter (exec (.op8XYE 15 0) (start 0x8F0E [(15, 0x81)])) (fun t => t.readV 15 == 2) = true := by decide

theorem witness_DecimalDigitsAreStored :
    ({ State.reset with I := 0xFFD } : State).I.toNat + 2 ≤ 0xFFF ∧
    0xFFF < ({ State.reset with I := 0xFFE } : State).I.toNat + 2 := by decide

theorem witness_RegistersAreStored :
    ({ State.reset with I := 0xFF0 } : State).I.toNat + (15 : Reg).val ≤ 0xFFF ∧
    0xFFF < ({ State.reset with I := 0xFF1 } : State).I.toNat + (15 : Reg).val ∧ (0 : Reg) ≤ 15 ∧ (15 : Reg) ≤ 15 := by decide

theorem witness_RegistersAreLoaded :
    ({ State.reset with I := 0xFFF } : State).I.toNat + (0 : Reg).val ≤ 0xFFF ∧
    0xFFF < ({ State.reset with I := 0xFFF } : State).I.toNat + (1 : Reg).val ∧ (0 : Reg) ≤ 0 := by decide

theorem witness_StoredWordIsFetchedNext :
    let s := { start 0xF155 [(0, 0x12), (1, 0x34)] with I := 0x202 }
    s.mode.isHalted = false ∧ s.nextInstr = some (.opFX55 1) ∧ 0 < (1 : Reg).val ∧ s.I.toNat = s.pc.toNat + 2 ∧
      s.I.toNat + (1 : Reg).val ≤ 0xFFF ∧ holdsAfter (step s) (fun t => t.fetch == some 0x1234) = true := by decide

theorem witness_RedrawSignalIsSetByDrawingAndClearedByTheHost :
    holdsAfter (exec (.op6XNN 0 0) { State.reset with drawFlag := true }) (fun t => t.drawFlag) = true ∧
    holdsAfter (exec (.opDXYN 0 1 0) State.reset) (fun t => t.drawFlag && t.mode == .running) = true ∧
    holdsAfter (exec (.opDXYN 0 1 2) { State.reset with I := 0xFFF }) (fun t => !t.drawFlag) = true := by decide

/-- In range at the last byte, N = 0 out of range, a collision and none (D8, D11, D4, D3), and one byte too many (D9). -/
theorem witness_DrawIsTheExclusiveOrOfTheSprite :
    (let s := ({ State.reset with I := 0xFFF } : State).memWrite 0xFFF 0x80
     s.I.toNat + (1 : Rows).val - 1 ≤ 0xFFF ∧ s.spriteCovers 0 1 1 0 = true ∧ s.gfx.cell 0 = false) ∧
    (0 : Rows).val = 0 ∧
    (let s := { State.reset with gfx := Frame.clear.flip 0 }
     s.gfx.cell 0 = true ∧ s.spriteCovers 0 1 5 0 = true) ∧
    (∀ k, State.reset.spriteCovers 0 1 0 k = true → State.reset.gfx.cell k = false) ∧
    (let s := { State.reset with I := 0xFFF }
     0 < (2 : Rows).val ∧ 0xFFF < s.I.toNat + (2 : Rows).val - 1) := by
  refine ⟨by decide, by decide, by decide, fun k h => ?_, by decide⟩
  cases h

theorem witness_SpritePixelsLandOnDistinctCells :
    (14 : Nat) < 15 ∧ (7 : Nat) < 8 ∧ pixelIndex 0xFF 0xFF 14 7 = pixelIndex 0xFF 0xFF 14 7 ∧
      pixelIndex 63 31 0 0 ≠ pixelIndex 63 31 14 7 := by decide

/-- A sprite over cells that held 0, and one over a cell that held 1, where the second draw finds nothing to clear. -/
theorem witness_DrawTwiceRestoresTheFrame :
    (0 : Reg) ≠ 15 ∧ (1 : Reg) ≠ 15 ∧ State.reset.I.toNat + (1 : Rows).val - 1 ≤ 0xFFF ∧
    holdsAfter (exec (.opDXYN 0 1 1) State.reset) (fun t =>
      holdsAfter (exec (.opDXYN 0 1 1) t) fun u => u.gfx == Frame.clear && u.readV 15 == 1) = true ∧
    (let s := ({ State.reset with I := 0x300, gfx := Frame.clear.flip 0 } : State).memWrite 0x300 0x80
     holdsAfter (exec (.opDXYN 0 1 1) s) (fun t =>
       holdsAfter (exec (.opDXYN 0 1 1) t) fun u => u.gfx == s.gfx && u.readV 15 == 0) = true) := by decide

theorem witness_KeySkipsTestTheNamedKey :
    ((start 0xE19E [(1, 0)]).readV 1).toNat = (0 : Fin 16).val ∧
    ((start 0xE19E [(1, 15)]).readV 1).toNat = (15 : Fin 16).val ∧ 15 < ((start 0xE19E [(1, 16)]).readV 1).toNat := by decide

theorem witness_DelayTimerIsReadBeforeItsDecrement :
    (start 0xF307 []).mode.isHalted = false ∧ (start 0xF307 []).nextInstr = some (.opFX07 3) := by decide

theorem witness_DelayTimerWriteIsCountedDownInItsStep :
    (start 0xF015 []).mode.isHalted = false ∧ (start 0xF015 []).nextInstr = some (.opFX15 0) := by decide

theorem witness_SoundTimerWriteMayBeepInItsStep :
    (start 0xF018 []).mode.isHalted = false ∧ (start 0xF018 []).nextInstr = some (.opFX18 0) := by decide

theorem witness_WaitForKeyReportsAPressedKey :
    (∃ k : Fin 16, (pressing State.reset 15).keys[k] = true) ∧ ∀ k : Fin 16, State.reset.keys[k] = false := by decide

theorem witness_ResetIsIdempotentAndAloneLeavesHalted :
    let s := { State.reset with mode := .halted ⟨.stackOverflow, 0x200, some 0x2200⟩ }
    s.mode = .halted ⟨.stackOverflow, 0x200, some 0x2200⟩ ∧
      holdsAfter (applyTx s .reset) (fun t => t.mode != .halted ⟨.stackOverflow, 0x200, some 0x2200⟩) = true := by decide

/-- H2, H3: the longest program and one byte more. -/
theorem witness_OversizedLoadChangesNothing :
    3584 < (List.replicate 3585 (0 : Byte)).length ∧ (List.replicate 3584 (0 : Byte)).length = 3584 ∧
      (0x200 : Nat) ≤ 0xFFF :=
  ⟨by rw [List.length_replicate]; omega, List.length_replicate .., by omega⟩

theorem witness_LoadCopiesTheProgram :
    ([] : List Byte).length ≤ 3584 ∧ (List.replicate 3584 (0 : Byte)).length ≤ 3584 ∧
      3583 < (List.replicate 3584 (0 : Byte)).length :=
  ⟨Nat.zero_le _, by rw [List.length_replicate], by rw [List.length_replicate]; omega⟩

/-- A machine with a byte stored, a return address on the stack, and the largest I and pc of a reachable state. -/
theorem witness_InvariantKeptByEveryStep :
    (withStack (({ State.reset with I := 0xFFF, pc := 0x10FE } : State).memWrite 0xFFF 0x12) 1 0xFFE).inv ∧
    holdsAfter (step (start 0x2300 [])) (fun t => t.sp == 1) = true ∧ (start 0x2300 []).inv := by decide

theorem witness_InvariantKeptByEveryTransaction : State.reset.inv := by decide

theorem witness_OnlyTheListedInstructionsWrite :
    holdsAfter (step { start 0xF155 [(0, 1), (1, 2)] with I := 0x300 }) (fun t => t.mem != (start 0xF155 []).mem) = true ∧
    holdsAfter (step (start 0xA2F0 [])) (fun t => t.I != 0) = true ∧
    holdsAfter (step (start 0x2300 [])) (fun t => t.sp != 0 && t.stack[0] != 0) = true ∧
    holdsAfter (step (start 0xD015 [])) (fun t => t.gfx != Frame.clear && t.drawFlag) = true ∧
    holdsAfter (step (start 0x8014 [(0, 0xFF), (1, 1)])) (fun t => t.readV 15 != 0 && t.readV 0 != 0xFF) = true ∧
    holdsAfter (step (start 0xF015 [(0, 9)])) (fun t => t.DT != 0) = true ∧
    holdsAfter (step (start 0xF018 [(0, 9)])) (fun t => t.ST != 0) = true ∧
    holdsAfter (step { start 0x6012 [] with DT := 5, ST := 1 }) (fun t => t.DT != 5 && t.ST != 1) = true := by decide

/-- Mode's clause: a completion leaves AwaitingKey for Running, FX0A waits, an underflow halts. -/
theorem witness_OnlyTheListedInstructionsWrite_mode :
    holdsAfter (step { start 0x6012 [] with mode := .awaitingKey 5 }) (fun t => t.mode == .running) = true ∧
    holdsAfter (step (start 0xF50A [])) (fun t => t.mode == .awaitingKey 5) = true ∧
    holdsAfter (step (start 0x00EE [])) (fun t => t.mode.isHalted) = true := by decide

theorem witness_KeysAreReadOnlyByKeyInstructions :
    (∀ x, (start 0x6012 []).nextInstr ∉ [some (.opEX9E x), some (.opEXA1 x), some (.opFX0A x)]) ∧
      holdsAfter (step (start 0x6012 [])) (fun t => t.readV 0 == 0x12) = true := by decide

end Sys2Proof.Tests
end

section
/-! PROOFS. The key inputs (10_state.md rule R43): SetKeys' frame, the operations and instructions that neither read nor write
the keys, and the Step. An operation that ignores the keys commutes with `setKeysTx`: it says at once that the keys are not
read, and, with the keys the state already has, that they are not written. -/

namespace Sys2Proof.Machine

section

variable (s : State) (k : Vector Bool 16)

/-! ## SetKeys -/

@[simp] theorem setKeysTx_keys : (setKeysTx s k).keys = k := rfl
@[simp] theorem setKeysTx_self : setKeysTx s s.keys = s := rfl
@[simp] theorem setKeysTx_mode : (setKeysTx s k).mode = s.mode := rfl
@[simp] theorem setKeysTx_fetch : (setKeysTx s k).fetch = s.fetch := rfl

/-- SetKeys changes no element but the keys (R43). -/
theorem setKeysTx_changesOnly_keys : changesOnly s (setKeysTx s k) [.keys] := by
  intro e he
  cases e with
  | keys => exact absurd (List.mem_singleton_self _) he
  | _ => exact rfl

/-! ## Operations that ignore the keys -/

theorem memWriteList_setKeysTx (a : Nat) (bs : List Byte) :
    (setKeysTx s k).memWriteList a bs = setKeysTx (s.memWriteList a bs) k := by
  induction bs generalizing s a with
  | nil => rfl
  | cons b rest ih => exact ih (s.memWrite a b) (a + 1)

theorem loadRegisters_setKeysTx (n : Nat) :
    (setKeysTx s k).loadRegisters n = setKeysTx (s.loadRegisters n) k := by
  induction n with
  | zero => rfl
  | succ n ih =>
    rw [State.loadRegisters, ih]
    rfl

theorem finish_setKeysTx : (setKeysTx s k).finish = setKeysTx s.finish k := by
  simp only [State.finish, setKeysTx_mode]
  split <;> rfl

/-! ## The execute phase -/

/-- An instruction other than EX9E, EXA1 and FX0A does the same whatever the keys are. Its condition, if it has one, does not
read them either, so both sides take the same branch. -/
theorem exec_setKeysTx {i : Instr} (hi : ∀ x, i ∉ [.opEX9E x, .opEXA1 x, .opFX0A x]) :
    exec i (setKeysTx s k) = Result.map (setKeysTx · k) (exec i s) := by
  cases i with
  | opEX9E x => exact absurd (by simp) (hi x)
  | opEXA1 x => exact absurd (by simp) (hi x)
  | opFX0A x => exact absurd (by simp) (hi x)
  | op00EE =>
    simp only [exec, exec00EE, apply_dite (Result.map _)]
    rfl
  | op2NNN nnn =>
    simp only [exec, exec2NNN, apply_dite (Result.map _)]
    rfl
  | opDXYN x y n =>
    simp only [exec, execDXYN, apply_ite (Result.map _)]
    rfl
  | opFX33 x =>
    simp only [exec, execFX33, memWriteList_setKeysTx, apply_ite (Result.map _)]
    rfl
  | opFX55 x =>
    simp only [exec, execFX55, memWriteList_setKeysTx, apply_ite (Result.map _)]
    rfl
  | opFX65 x =>
    simp only [exec, execFX65, loadRegisters_setKeysTx, apply_ite (Result.map _)]
    rfl
  | _ => rfl

/-- No instruction writes the keys. -/
theorem exec_keys {i : Instr} {s t : State} (h : exec i s = .next t) : t.keys = s.keys := by
  by_cases hi : ∀ x, i ∉ [.opEX9E x, .opEXA1 x, .opFX0A x]
  · have e := exec_setKeysTx s s.keys hi
    rw [setKeysTx_self, h] at e
    injection e with e
    exact (congrArg State.keys e).trans (setKeysTx_keys t s.keys)
  · simp only [not_forall, not_not, List.mem_cons, List.not_mem_nil, or_false] at hi
    obtain ⟨x, rfl | rfl | rfl⟩ := hi
    · simp only [exec, execEX9E] at h
      split at h <;> cases h <;> rfl
    · simp only [exec, execEXA1] at h
      split at h <;> cases h <;> rfl
    · simp only [exec, execFX0A] at h
      split at h <;> cases h <;> rfl

/-! ## The Step -/

/-- No Step writes the keys (R43). -/
theorem step_keys {s t : State} (h : step s = .next t) : t.keys = s.keys := by
  cases step_cases h with
  | done w i u live fetch dec ex => exact exec_keys (t := u) ex
  | _ => rfl

/-- A Step of a live state that does not execute EX9E, EXA1 or FX0A is the same whatever the keys are. -/
theorem runStep_setKeysTx (hn : ∀ x, s.nextInstr ∉ [some (.opEX9E x), some (.opEXA1 x), some (.opFX0A x)]) :
    runStep (setKeysTx s k) = Result.map (setKeysTx · k) (runStep s) := by
  simp only [runStep, setKeysTx_fetch]
  cases hw : s.fetch with
  | none => rfl
  | some w =>
    simp only [runWord]
    cases hd : decodeWord w with
    | unknown u => rfl
    | known i =>
      have hi : ∀ x, i ∉ [.opEX9E x, .opEXA1 x, .opFX0A x] := by
        simpa [(nextInstr_eq_some_iff s i).mpr ⟨w, hw, hd⟩] using hn
      simp only [exec_setKeysTx s k hi]
      cases exec i s with
      | next t => exact congrArg _ (finish_setKeysTx t k)
      | fault r => rfl
      | refused r => rfl

/-- The same for every Step: in Halted it reads nothing but the mode (R43). -/
theorem step_setKeysTx (hn : ∀ x, s.nextInstr ∉ [some (.opEX9E x), some (.opEXA1 x), some (.opFX0A x)]) :
    step (setKeysTx s k) = Result.map (setKeysTx · k) (step s) := by
  simp only [step, cycle, setKeysTx_mode]
  cases s.mode with
  | halted f => rfl
  | running => exact runStep_setKeysTx s k hn
  | awaitingKey x => exact runStep_setKeysTx s k hn

end

/-- Settles O59: SetKeys' frame is read off its definition; no Step writes the keys, and unless a key
instruction is next the Step commutes with SetKeys. -/
theorem keysAreReadOnlyByKeyInstructions : Obligations.KeysAreReadOnlyByKeyInstructions := by
  unfold Obligations.KeysAreReadOnlyByKeyInstructions
  refine ⟨fun s k => ⟨setKeysTx_keys s k, setKeysTx_changesOnly_keys s k⟩, fun s t => step_keys, fun s t k hn h => ?_⟩
  calc step (setKeysTx s k)
      _ = Result.map (setKeysTx · k) (step s) := step_setKeysTx s k hn
      _ = .next (setKeysTx t k) := by rw [h]; rfl

end Sys2Proof.Machine
end

section
/-! PROOFS. The decoder's dispatch and its operands (30_encoding.md rules R101, R106-R108): what each family's sub-decoder
answers, and that the operand fields of a decoded instruction are among the five fields read from its word. -/

namespace Sys2Proof

section

variable {w : Word} {i : Instr}

/-! ## Operand fields of the decoded instruction -/

/-- The operand fields of R101, read from a word. -/
def wordFields (w : Word) : List Field :=
  [.x (fieldX w), .y (fieldY w), .n (fieldN w), .nn (fieldNN w), .nnn (fieldNNN w)]

theorem value_eq_bits_of_mem_wordFields {f : Field} (hf : f ∈ wordFields w) : f.value = bits w f.hi f.lo := by
  simp only [wordFields, List.mem_cons, List.not_mem_nil, or_false] at hf
  rcases hf with rfl | rfl | rfl | rfl | rfl
  · exact fieldX_val w
  · exact fieldY_val w
  · exact (fieldN_val w).trans (bits_low_nibble w).symm
  · exact (fieldNN_toNat w).trans (bits_low_byte w).symm
  · exact (fieldNNN_toNat w).trans (by simp [Field.nnn, bits])

theorem position_of_mem_wordFields {f : Field} (hf : f ∈ wordFields w) :
    (f.hi, f.lo) ∈ [(11, 8), (7, 4), (3, 0), (7, 0), (11, 0)] :=
  List.mem_map_of_mem (f := fun f => (f.hi, f.lo)) hf

theorem fields_of_decodeFamily0 (h : decodeFamily0 w = .known i) : i.fields = [] := by
  unfold decodeFamily0 at h
  split_ifs at h <;> cases h <;> rfl

theorem eq_of_decodeLowZero {j : Instr} (h : decodeLowZero w j = .known i) : i = j := by
  unfold decodeLowZero at h
  split_ifs at h
  cases h
  rfl

theorem fields_of_decodeFamily8 (h : decodeFamily8 w = .known i) : i.fields = [.x (fieldX w), .y (fieldY w)] := by
  unfold decodeFamily8 at h
  split at h <;> cases h <;> rfl

theorem fields_of_decodeFamilyE (h : decodeFamilyE w = .known i) : i.fields = [.x (fieldX w)] := by
  unfold decodeFamilyE at h
  split_ifs at h <;> cases h <;> rfl

theorem fields_of_decodeFamilyF (h : decodeFamilyF w = .known i) : i.fields = [.x (fieldX w)] := by
  unfold decodeFamilyF at h
  split_ifs at h <;> cases h <;> rfl

/-- Every operand field of a decoded instruction is one of the five read from its word. `h_n` is the dispatch's arm of family
n - 1: those named have a sub-decoder, the others answer their instruction, or none, directly. -/
theorem fields_subset_wordFields (h : decodeWord w = .known i) : i.fields ⊆ wordFields w := by
  unfold decodeWord at h
  split at h
  case h_1 => simp [fields_of_decodeFamily0 h]
  case h_6 => simp [eq_of_decodeLowZero h, Instr.fields, wordFields]
  case h_9 => simp [fields_of_decodeFamily8 h, wordFields]
  case h_10 => simp [eq_of_decodeLowZero h, Instr.fields, wordFields]
  case h_15 => simp [fields_of_decodeFamilyE h, wordFields]
  case h_16 => simp [fields_of_decodeFamilyF h, wordFields]
  all_goals cases h
  all_goals simp [Instr.fields, wordFields]

/-! ## Dispatch of families 8, E and F -/

theorem decodeWord_of_family8 (h : bits w 15 12 = 0x8) : decodeWord w = decodeFamily8 w := by
  simp only [decodeWord, family, h]

theorem decodeWord_of_familyE (h : bits w 15 12 = 0xE) : decodeWord w = decodeFamilyE w := by
  simp only [decodeWord, family, h]

theorem decodeWord_of_familyF (h : bits w 15 12 = 0xF) : decodeWord w = decodeFamilyF w := by
  simp only [decodeWord, family, h]

theorem decodeFamily8_unknown (h : bits w 3 0 ∈ [0x8, 0x9, 0xA, 0xB, 0xC, 0xD, 0xF]) :
    decodeFamily8 w = .unknown w := by
  simp only [List.mem_cons, List.not_mem_nil, or_false] at h
  rcases h with h | h | h | h | h | h | h <;> simp only [decodeFamily8, h]

theorem decodeFamilyE_unknown (h : bits w 7 0 ∉ [0x9E, 0xA1]) : decodeFamilyE w = .unknown w := by
  simp only [List.mem_cons, List.not_mem_nil, or_false, not_or] at h
  simp only [decodeFamilyE, h, if_false]

theorem decodeFamilyF_unknown (h : bits w 7 0 ∉ [0x07, 0x0A, 0x15, 0x18, 0x1E, 0x29, 0x33, 0x55, 0x65]) :
    decodeFamilyF w = .unknown w := by
  simp only [List.mem_cons, List.not_mem_nil, or_false, not_or] at h
  simp only [decodeFamilyF, h, if_false]

end

/-- Settles O6: the fields are the word's bits, and a decoded instruction's fields are among them. -/
theorem operandsAreTheBitsAtTheirPositions : Obligations.OperandsAreTheBitsAtTheirPositions := by
  unfold Obligations.OperandsAreTheBitsAtTheirPositions
  intro w
  refine ⟨⟨family_eq w, fieldX_val w, fieldY_val w, fieldN_val w, fieldNN_toNat w, fieldNNN_toNat w⟩,
    fun i hi f hf => ?_⟩
  have hw : f ∈ wordFields w := fields_subset_wordFields hi hf
  exact ⟨value_eq_bits_of_mem_wordFields hw, by simpa using position_of_mem_wordFields hw⟩

/-- Settles O4: the top nibble selects the family's sub-decoder, and each value of the sub-field selects its branch. -/
theorem subDispatchOfFamilies8EF : Obligations.SubDispatchOfFamilies8EF := by
  unfold Obligations.SubDispatchOfFamilies8EF
  refine fun w => ⟨fun h8 => ?_, fun hE => ?_, fun hF => ?_⟩
  · rw [decodeWord_of_family8 h8]
    refine ⟨?_, ?_, ?_, ?_, ?_, ?_, ?_, ?_, ?_, decodeFamily8_unknown⟩
    all_goals
      intro h
      simp only [decodeFamily8, h]
  · rw [decodeWord_of_familyE hE]
    refine ⟨?_, ?_, decodeFamilyE_unknown⟩
    all_goals
      intro h
      simp [decodeFamilyE, h]
  · rw [decodeWord_of_familyF hF]
    refine ⟨?_, ?_, ?_, ?_, ?_, ?_, ?_, ?_, ?_, decodeFamilyF_unknown⟩
    all_goals
      intro h
      simp [decodeFamilyF, h]

end Sys2Proof
end

section
/-! PROOFS. The delay timer and the unknown word (40_cycle.md rules R151, R152): what the execute phase leaves in DT, and the two
ways a Step ends in its timer step. -/

namespace Sys2Proof.Machine

section

variable {s t : State} {w : Word} {i : Instr}

/-! ## The execute phase and DT -/

@[simp] theorem loadRegisters_DT (s : State) (n : Nat) : (s.loadRegisters n).DT = s.DT := by
  rw [loadRegisters_V_only]

/-- No instruction but FX15 writes DT (R335). Those with two outcomes are split; the stores and the load leave DT by the lemma on
their operation. -/
theorem exec_DT (hi : ∀ x, i ≠ .opFX15 x) (h : exec i s = .next t) : t.DT = s.DT := by
  cases i with
  | opFX15 x => exact absurd rfl (hi x)
  | op00EE | op2NNN | opDXYN | opEX9E | opEXA1 | opFX0A =>
    simp only [exec, exec00EE, exec2NNN, execDXYN, execEX9E, execEXA1, execFX0A] at h
    split at h <;> cases h <;> rfl
  | opFX33 | opFX55 =>
    simp only [exec, execFX33, execFX55] at h
    split at h <;> cases h
    · exact memWriteList_DT s _ _
    · rfl
  | opFX65 x =>
    simp only [exec, execFX65] at h
    split at h <;> cases h
    · exact loadRegisters_DT s _
    · rfl
  | _ => cases h; rfl

/-! ## Steps that end in the timer step -/

theorem nextInstr_of_known (hw : s.fetch = some w) (hd : decodeWord w = .known i) : s.nextInstr = some i :=
  (nextInstr_eq_some_iff s i).mpr ⟨w, hw, hd⟩

theorem nextInstr_of_unknown {u : Word} (hw : s.fetch = some w) (hd : decodeWord w = .unknown u) :
    s.nextInstr = none := by
  simp only [State.nextInstr, hw, hd]

theorem exec_FX0A_of_no_key {x : Reg} (h : s.pressedKeys = []) : exec (.opFX0A x) s = .next (s.wait x) := by
  simp only [exec, execFX0A, h]

/-- A Step that is neither fatal nor taken in Halted takes the timer step (R152), after its instruction, done or waiting, or
after the report of an unknown word. -/
theorem step_takes_timerStep (h : step s = .next t) (hs : s.mode.isHalted = false) (ht : t.mode.isHalted = false) :
    (∃ i u status, s.nextInstr = some i ∧ exec i s = .next u ∧ t = u.timerStep status) ∨
    (s.nextInstr = none ∧ ∃ status, t = s.done.timerStep status) := by
  cases step_cases h with
  | halted f mode => exact absurd mode ((isHalted_eq_false_iff _).mp hs f)
  | fetchFault live fetch => exact absurd rfl ((isHalted_eq_false_iff _).mp ht _)
  | unknown w live fetch dec => exact .inr ⟨nextInstr_of_unknown fetch dec, _, rfl⟩
  | done w i u live fetch dec ex running => exact .inl ⟨i, u, _, nextInstr_of_known fetch dec, ex, rfl⟩
  | wait w x live fetch dec none =>
    exact .inl ⟨.opFX0A x, s.wait x, _, nextInstr_of_known fetch dec, exec_FX0A_of_no_key none, rfl⟩
  | fatal w i reason live fetch dec ex => exact absurd rfl ((isHalted_eq_false_iff _).mp ht _)

/-! ## The unknown word -/

theorem step_unknown (live : ∀ f, s.mode ≠ .halted f) (hw : s.fetch = some w) (hd : decodeWord w = .unknown w) :
    step s = .next (s.reportUnknown w) := by
  simp only [step_of_live live, runStep, hw, runWord, hd]

/-- The report of an unknown word changes only what R151 lists. -/
theorem reportUnknown_changesOnly (s : State) (w : Word) :
    changesOnly s (s.reportUnknown w) [.pc, .mode, .DT, .ST, .out] := by
  intro e he
  cases e with
  | pc | mode | DT | ST | out => exact absurd (by simp) he
  | _ => exact rfl

end

/-- Settles O16: the timer step counts down what the instruction left in DT, which only FX15 writes; FX07 reads DT before it. -/
theorem delayTimerCountsDownOncePerStep : Obligations.DelayTimerCountsDownOncePerStep := by
  unfold Obligations.DelayTimerCountsDownOncePerStep
  intro s t h hs ht
  obtain ⟨i, u, status, hn, hex, rfl⟩ | ⟨hn, status, rfl⟩ := step_takes_timerStep h hs ht
  · simp only [hn, ne_eq, Option.some.injEq, timerStep_DT, timerStep_readV, countDown_toNat]
    refine ⟨?_, fun hi => by rw [exec_DT hi hex], ?_⟩
    · rintro x rfl
      cases hex
      rfl
    · rintro x rfl
      cases hex
      exact writeV_readV_self s x s.DT
  · exact ⟨by simp [hn], fun _ => countDown_toNat s.DT, by simp [hn]⟩

/-- Settles O10: the Step is the report of the word, whose fields and frame are read off `done` and `timerStep`. -/
theorem unknownWordIsReportedAndSkipped : Obligations.UnknownWordIsReportedAndSkipped := by
  unfold Obligations.UnknownWordIsReportedAndSkipped
  intro s w hs hw hd
  exact ⟨s.reportUnknown w, step_unknown ((isHalted_eq_false_iff _).mp hs) hw hd, rfl, rfl, rfl,
    countDown_toNat s.DT, countDown_toNat s.ST, reportUnknown_changesOnly s w⟩

end Sys2Proof.Machine
end

section
/-! PROOFS. Call and return (41_flow.md rules R180, R182, R189): what the two instructions do when the stack allows them, and the
Step that executes each. -/

namespace Sys2Proof.Machine

section

variable {s t : State} {i : Instr} {nnn : Addr}

/-! ## The execute phase -/

theorem exec_op2NNN_of_free (h : s.sp.val < 16) :
    exec (.op2NNN nnn) s = .next ((s.pushPc h).doneAt (zextAddr nnn)) := dif_pos h

theorem exec_op00EE_of_used (h : 0 < s.sp.val) :
    exec .op00EE s = .next (s.dropTop.doneAt (s.topOfStack h + 2)) := dif_pos h

/-! ## The Step -/

/-- A Step whose instruction completes is that instruction and the timer step (R145, R152). -/
theorem step_of_exec_running (hs : s.mode.isHalted = false) (hn : s.nextInstr = some i) (hex : exec i s = .next t)
    (running : t.mode = .running) : step s = .next (t.timerStep .ok) := by
  obtain ⟨w, hw, hd⟩ := (nextInstr_eq_some_iff s i).mp hn
  rw [step_known ((isHalted_eq_false_iff _).mp hs) hw hd, hex, Result.map, finish_running running]

/-- The state after the Step of a call: pc pushed and the jump taken (R182), then the timer step. -/
def State.afterCall (s : State) (nnn : Addr) (h : s.sp.val < 16) : State :=
  ((s.pushPc h).doneAt (zextAddr nnn)).timerStep .ok

/-- The Step of a call with a free slot (R182). -/
theorem step_call (hs : s.mode.isHalted = false) (hn : s.nextInstr = some (.op2NNN nnn)) (h : s.sp.val < 16) :
    step s = .next (s.afterCall nnn h) :=
  step_of_exec_running hs hn (exec_op2NNN_of_free h) rfl

/-- The Step of a return with a slot in use (R180). -/
theorem step_return (hs : s.mode.isHalted = false) (hn : s.nextInstr = some .op00EE) (h : 0 < s.sp.val) :
    step s = .next ((s.dropTop.doneAt (s.topOfStack h + 2)).timerStep .ok) :=
  step_of_exec_running hs hn (exec_op00EE_of_used h) rfl

/-- A return is next where its two bytes are stored at pc (R141). -/
theorem nextInstr_op00EE_of_bytes (hpc : s.pc.toNat + 1 ≤ 0xFFF) (high : s.memRead s.pc.toNat = 0x00)
    (low : s.memRead (s.pc.toNat + 1) = 0xEE) : s.nextInstr = some .op00EE := by
  refine nextInstr_of_known (fetch_of_range hpc) ?_
  rw [high, low]
  exact Laws.RoundTrip.op00EE

/-! ## The state after a call -/

theorem zextAddr_toNat (a : Addr) : (zextAddr a).toNat = a.toNat := BitVec.toNat_setWidth_of_le (by decide)

section

variable (s : State) (nnn : Addr) (h : s.sp.val < 16)

theorem afterCall_pc_toNat : (s.afterCall nnn h).pc.toNat = nnn.toNat := zextAddr_toNat nnn

@[simp] theorem afterCall_memRead (a : Nat) : (s.afterCall nnn h).memRead a = s.memRead a := rfl

theorem afterCall_slot {j : Fin 16} (hj : j.val = s.sp.val) : (s.afterCall nnn h).stack[j] = s.pc :=
  (pushPc_slot s h j).trans (if_pos hj)

theorem afterCall_topOfStack : (s.afterCall nnn h).topOfStack (Nat.succ_pos _) = s.pc := pushPc_topOfStack s h

/-- With 00EE stored at the call's target, the return is next after the call. -/
theorem nextInstr_afterCall (hr : nnn.toNat + 1 ≤ 0xFFF) (high : s.memRead nnn.toNat = 0x00)
    (low : s.memRead (nnn.toNat + 1) = 0xEE) : (s.afterCall nnn h).nextInstr = some .op00EE :=
  nextInstr_op00EE_of_bytes (by rwa [afterCall_pc_toNat]) (by rwa [afterCall_pc_toNat]) (by rwa [afterCall_pc_toNat])

end

end

/-- Settles O27: the call changes no byte, so the 00EE at its target is fetched next, and it pops the pc the call pushed. -/
theorem callThenReturnRoundTrip : Obligations.CallThenReturnRoundTrip := by
  unfold Obligations.CallThenReturnRoundTrip
  intro s nnn j hs hn hj hr high low
  have h : s.sp.val < 16 := hj ▸ j.isLt
  have hret : (s.afterCall nnn h).nextInstr = some .op00EE := nextInstr_afterCall s nnn h hr high low
  exact ⟨s.afterCall nnn h, _, step_call hs hn h, afterCall_slot s nnn h hj, rfl, rfl,
    step_return rfl hret (Nat.succ_pos _), rfl, congrArg (· + 2) (afterCall_topOfStack s nnn h)⟩

end Sys2Proof.Machine
end

section
/-! PROOFS. A Load at the limit of the program area (60_exceptions.md rule R406). -/

namespace Sys2Proof.Machine

/-- After a Load that fits, byte k of the program stands at 0x200 + k (R446). -/
theorem loadTx_memRead {s : State} {bytes : List Byte} {k : Nat} (fits : bytes.length ≤ 3584) (hk : k < bytes.length) :
    some ((loadTx s bytes).1.memRead (0x200 + k)) = bytes[k]? := by
  rw [loadTx_fits s bytes fits, memWriteList_memRead_at s 0x200 bytes k hk, List.getElem?_eq_getElem hk]

/-- Settles O53: a program over the limit is rejected before the copy; one at the limit has a byte for each address of
0x200-0xFFF. -/
theorem oversizedLoadChangesNothing : Obligations.OversizedLoadChangesNothing := by
  unfold Obligations.OversizedLoadChangesNothing
  intro s bytes
  refine ⟨loadTx_too_long s bytes, fun full => ?_⟩
  have fits : bytes.length ≤ 3584 := full.le
  refine ⟨congrArg Prod.snd (loadTx_fits s bytes fits), fun a low high => ?_⟩
  have copied : some ((loadTx s bytes).1.memRead (0x200 + (a - 0x200))) = bytes[a - 0x200]? :=
    loadTx_memRead fits (by omega)
  rwa [Nat.add_sub_cancel' low] at copied

end Sys2Proof.Machine
end

section
/-! PROOFS. The decoder and the encoder undo each other, and the opcode map (30_encoding.md rules R100-R111): a word is put
together again from its fields, a row's mask shows the fields that select it, and the words of no row are the five groups. -/

namespace Sys2Proof

section

variable {w : Word} {i : Instr}

/-! ## Round trip from the instruction -/

theorem decodeWord_encodeWord (i : Instr) : decodeWord (encodeWord i) = .known i := by
  cases i with
  | op00E0 => exact Laws.RoundTrip.op00E0
  | op00EE => exact Laws.RoundTrip.op00EE
  | op1NNN nnn => exact Laws.RoundTrip.op1NNN nnn
  | op2NNN nnn => exact Laws.RoundTrip.op2NNN nnn
  | op3XNN x nn => exact Laws.RoundTrip.op3XNN x nn
  | op4XNN x nn => exact Laws.RoundTrip.op4XNN x nn
  | op5XY0 x y => exact Laws.RoundTrip.op5XY0 x y
  | op6XNN x nn => exact Laws.RoundTrip.op6XNN x nn
  | op7XNN x nn => exact Laws.RoundTrip.op7XNN x nn
  | op8XY0 x y => exact Laws.RoundTrip.op8XY0 x y
  | op8XY1 x y => exact Laws.RoundTrip.op8XY1 x y
  | op8XY2 x y => exact Laws.RoundTrip.op8XY2 x y
  | op8XY3 x y => exact Laws.RoundTrip.op8XY3 x y
  | op8XY4 x y => exact Laws.RoundTrip.op8XY4 x y
  | op8XY5 x y => exact Laws.RoundTrip.op8XY5 x y
  | op8XY6 x y => exact Laws.RoundTrip.op8XY6 x y
  | op8XY7 x y => exact Laws.RoundTrip.op8XY7 x y
  | op8XYE x y => exact Laws.RoundTrip.op8XYE x y
  | op9XY0 x y => exact Laws.RoundTrip.op9XY0 x y
  | opANNN nnn => exact Laws.RoundTrip.opANNN nnn
  | opBNNN nnn => exact Laws.RoundTrip.opBNNN nnn
  | opCXNN x nn => exact Laws.RoundTrip.opCXNN x nn
  | opDXYN x y n => exact Laws.RoundTrip.opDXYN x y n
  | opEX9E x => exact Laws.RoundTrip.opEX9E x
  | opEXA1 x => exact Laws.RoundTrip.opEXA1 x
  | opFX07 x => exact Laws.RoundTrip.opFX07 x
  | opFX15 x => exact Laws.RoundTrip.opFX15 x
  | opFX18 x => exact Laws.RoundTrip.opFX18 x
  | opFX0A x => exact Laws.RoundTrip.opFX0A x
  | opFX1E x => exact Laws.RoundTrip.opFX1E x
  | opFX29 x => exact Laws.RoundTrip.opFX29 x
  | opFX33 x => exact Laws.RoundTrip.opFX33 x
  | opFX55 x => exact Laws.RoundTrip.opFX55 x
  | opFX65 x => exact Laws.RoundTrip.opFX65 x

/-- Two bytes decode as the word they form; the bytes after them are handed on. -/
theorem decode_cons_cons_ok_iff {high low : Byte} {rest after : List Byte} :
    decode (high :: low :: rest) = .ok (i, after) ↔
      decodeWord (wordOfBytes high low) = .known i ∧ rest = after := by
  simp only [decode]
  cases decodeWord (wordOfBytes high low) <;> simp

/-! ## A word put together from its fields -/

theorem encodeA_of_fields {op : Nat} (h : family w = op) : encodeA op (fieldNNN w) = w := by
  apply BitVec.eq_of_toNat_eq
  simp only [encodeA, BitVec.toNat_ofNat, fieldNNN_toNat, ← h, family_eq]
  omega

theorem encodeXB_of_fields {op : Nat} (h : family w = op) : encodeXB op (fieldX w) (fieldNN w) = w := by
  apply BitVec.eq_of_toNat_eq
  simp only [encodeXB, BitVec.toNat_ofNat, fieldX_val, fieldNN_toNat, ← h, family_eq]
  omega

theorem encodeXY_of_fields {op low : Nat} (h : family w = op) (hl : bits w 3 0 = low) :
    encodeXY op (fieldX w) (fieldY w) low = w := by
  apply BitVec.eq_of_toNat_eq
  simp only [encodeXY, BitVec.toNat_ofNat, fieldX_val, fieldY_val, ← h, ← hl, family_eq, bits_low_nibble]
  omega

theorem encodeXS_of_fields {op sub : Nat} (h : family w = op) (hs : bits w 7 0 = sub) :
    encodeXS op (fieldX w) sub = w := by
  apply BitVec.eq_of_toNat_eq
  simp only [encodeXS, BitVec.toNat_ofNat, fieldX_val, ← h, ← hs, family_eq, bits_low_byte]
  omega

/-! ## Round trip from the word, by sub-decoder -/

theorem encodeWord_of_decodeFamily0 (h : decodeFamily0 w = .known i) : encodeWord i = w := by
  unfold decodeFamily0 at h
  split_ifs at h with hw hw'
  · cases h
    exact hw.symm
  · cases h
    exact hw'.symm

theorem bits_of_decodeLowZero {j : Instr} (h : decodeLowZero w j = .known i) : bits w 3 0 = 0 := by
  unfold decodeLowZero at h
  split_ifs at h with hl
  exact hl

theorem encodeWord_of_decodeFamily8 (hf : family w = 0x8) (h : decodeFamily8 w = .known i) : encodeWord i = w := by
  unfold decodeFamily8 at h
  split at h <;> cases h <;> exact encodeXY_of_fields hf ‹_›

theorem encodeWord_of_decodeFamilyE (hf : family w = 0xE) (h : decodeFamilyE w = .known i) : encodeWord i = w := by
  unfold decodeFamilyE at h
  split_ifs at h <;> cases h <;> exact encodeXS_of_fields hf ‹_›

theorem encodeWord_of_decodeFamilyF (hf : family w = 0xF) (h : decodeFamilyF w = .known i) : encodeWord i = w := by
  unfold decodeFamilyF at h
  split_ifs at h <;> cases h <;> exact encodeXS_of_fields hf ‹_›

/-- No bit of an instruction word is dropped. `h_n` is the dispatch's arm of family n - 1; the arms without a sub-decoder are
those of the formats A, XB and XYN. -/
theorem encodeWord_of_decodeWord (h : decodeWord w = .known i) : encodeWord i = w := by
  unfold decodeWord at h
  split at h
  case h_1 => exact encodeWord_of_decodeFamily0 h
  case h_6 hf => exact eq_of_decodeLowZero h ▸ encodeXY_of_fields hf (bits_of_decodeLowZero h)
  case h_9 hf => exact encodeWord_of_decodeFamily8 hf h
  case h_10 hf => exact eq_of_decodeLowZero h ▸ encodeXY_of_fields hf (bits_of_decodeLowZero h)
  case h_14 hf =>
    cases h
    exact encodeXY_of_fields hf ((bits_low_nibble w).trans (fieldN_val w).symm)
  case h_15 hf => exact encodeWord_of_decodeFamilyE hf h
  case h_16 hf => exact encodeWord_of_decodeFamilyF hf h
  case h_2 hf | h_3 hf | h_11 hf | h_12 hf =>
    cases h
    exact encodeA_of_fields hf
  case h_4 hf | h_5 hf | h_7 hf | h_8 hf | h_13 hf =>
    cases h
    exact encodeXB_of_fields hf
  case h_17 => cases h

/-! ## What the masks of the opcode map select (R110) -/

theorem and_F000_eq_iff (v : Word) : w &&& 0xF000#16 = v ↔ family w = v.toNat / 4096 ∧ v.toNat % 4096 = 0 := by
  rw [← BitVec.toNat_inj, and_F000_toNat, family_eq]
  omega

theorem and_F00F_eq_iff (v : Word) : w &&& 0xF00F#16 = v ↔ family w = v.toNat / 4096 ∧ bits w 3 0 = v.toNat % 4096 := by
  rw [← BitVec.toNat_inj, and_F00F_toNat, family_eq, bits_low_nibble]
  omega

theorem and_F0FF_eq_iff (v : Word) : w &&& 0xF0FF#16 = v ↔ family w = v.toNat / 4096 ∧ bits w 7 0 = v.toNat % 4096 := by
  rw [← BitVec.toNat_inj, and_F0FF_toNat, family_eq, bits_low_byte]
  omega

theorem encodeA_and_F000 {op : Nat} (nnn : Addr) (h : op < 16) :
    encodeA op nnn &&& 0xF000#16 = BitVec.ofNat 16 (op * 4096) := by
  obtain ⟨hf, _⟩ := formatA op nnn h
  rw [and_F000_eq_iff, hf, BitVec.toNat_ofNat]
  omega

theorem encodeXB_and_F000 {op : Nat} (x : Reg) (nn : Byte) (h : op < 16) :
    encodeXB op x nn &&& 0xF000#16 = BitVec.ofNat 16 (op * 4096) := by
  obtain ⟨hf, _⟩ := formatXB op x nn h
  rw [and_F000_eq_iff, hf, BitVec.toNat_ofNat]
  omega

theorem encodeXY_and_F000 {op : Nat} (x y : Reg) (n : Rows) (h : op < 16) :
    encodeXY op x y n.val &&& 0xF000#16 = BitVec.ofNat 16 (op * 4096) := by
  obtain ⟨hf, _⟩ := formatXY op x y n.val h n.isLt
  rw [and_F000_eq_iff, hf, BitVec.toNat_ofNat]
  omega

theorem encodeXY_and_F00F {op low : Nat} (x y : Reg) (h : op < 16) (hl : low < 16) :
    encodeXY op x y low &&& 0xF00F#16 = BitVec.ofNat 16 (op * 4096 + low) := by
  obtain ⟨hf, _, _, hb⟩ := formatXY op x y low h hl
  rw [and_F00F_eq_iff, hf, hb, BitVec.toNat_ofNat]
  omega

theorem encodeXS_and_F0FF {op sub : Nat} (x : Reg) (h : op < 16) (hs : sub < 256) :
    encodeXS op x sub &&& 0xF0FF#16 = BitVec.ofNat 16 (op * 4096 + sub) := by
  obtain ⟨hf, _, hb⟩ := formatXS op x sub h hs
  rw [and_F0FF_eq_iff, hf, hb, BitVec.toNat_ofNat]
  omega

/-! ## The rows of the opcode map (R110) -/

theorem matchesWord_iff {r : OpcodeRow} : r.matchesWord w = true ↔ w &&& r.mask = r.value := by
  simp [OpcodeRow.matchesWord]

theorem row_mem_opcodeTable (i : Instr) : i.row ∈ opcodeTable := by
  cases i <;> simp [Instr.row, opcodeTable]

/-- The word of an instruction matches the instruction's row: each format's mask leaves the family and the fixed low bits. -/
theorem encodeWord_and_mask (i : Instr) : encodeWord i &&& i.row.mask = i.row.value := by
  cases i with
  | op00E0 | op00EE => rfl
  | op1NNN nnn | op2NNN nnn | opANNN nnn | opBNNN nnn => exact encodeA_and_F000 nnn (by decide)
  | op3XNN x nn | op4XNN x nn | op6XNN x nn | op7XNN x nn | opCXNN x nn => exact encodeXB_and_F000 x nn (by decide)
  | opDXYN x y n => exact encodeXY_and_F000 x y n (by decide)
  | op5XY0 x y | op8XY0 x y | op8XY1 x y | op8XY2 x y | op8XY3 x y | op8XY4 x y | op8XY5 x y | op8XY6 x y | op8XY7 x y
  | op8XYE x y | op9XY0 x y => exact encodeXY_and_F00F x y (by decide) (by decide)
  | opEX9E x | opEXA1 x | opFX07 x | opFX15 x | opFX18 x | opFX0A x | opFX1E x | opFX29 x | opFX33 x | opFX55 x
  | opFX65 x => exact encodeXS_and_F0FF x (by decide) (by decide)

theorem row_matchesWord (h : decodeWord w = .known i) : i.row.matchesWord w = true := by
  obtain rfl := encodeWord_of_decodeWord h
  exact matchesWord_iff.mpr (encodeWord_and_mask i)

/-- A word that matches a row is that row's instruction: the fields the mask shows lead the dispatch to it. -/
theorem exists_known_of_matchesWord {r : OpcodeRow} (hr : r ∈ opcodeTable) (h : r.matchesWord w = true) :
    ∃ i, decodeWord w = .known i ∧ i.row = r := by
  rw [matchesWord_iff] at h
  simp only [opcodeTable, List.cons_append, List.nil_append, List.mem_cons, List.not_mem_nil, or_false] at hr
  obtain rfl | rfl | hr := hr
  · obtain rfl := (and_FFFF w).symm.trans h
    exact ⟨_, Laws.RoundTrip.op00E0, rfl⟩
  · obtain rfl := (and_FFFF w).symm.trans h
    exact ⟨_, Laws.RoundTrip.op00EE, rfl⟩
  · rcases hr with rfl | rfl | rfl | rfl | rfl | rfl | rfl | rfl | rfl | rfl | rfl | rfl | rfl | rfl | rfl | rfl |
      rfl | rfl | rfl | rfl | rfl | rfl | rfl | rfl | rfl | rfl | rfl | rfl | rfl | rfl | rfl | rfl
    all_goals
      simp only [BitVec.ofNat_eq_ofNat, and_F000_eq_iff, and_F00F_eq_iff, and_F0FF_eq_iff] at h
      simp [decodeWord, h, decodeLowZero, decodeFamily8, decodeFamilyE, decodeFamilyF, Instr.row]

/-- The words of a row are those that decode to an instruction of the row. -/
theorem encodedBy_of_row {form : Instr → Prop} (r : OpcodeRow) (hr : r ∈ opcodeTable) (hform : ∀ i, i.row = r ↔ form i) :
    Machine.encodedBy r.value r.mask form := by
  intro w
  rw [← matchesWord_iff]
  constructor
  · intro h
    obtain ⟨i, hd, hi⟩ := exists_known_of_matchesWord hr h
    exact ⟨i, (hform i).mp hi, hd⟩
  · rintro ⟨i, hi, hd⟩
    exact (hform i).mpr hi ▸ row_matchesWord hd

/-! ## Unknown words (R111) -/

theorem decodeFamily0_unknown_iff : decodeFamily0 w = .unknown w ↔ w ≠ 0x00E0 ∧ w ≠ 0x00EE := by
  unfold decodeFamily0
  split_ifs <;> simp [*]

theorem decodeLowZero_unknown_iff : decodeLowZero w i = .unknown w ↔ bits w 3 0 ≠ 0 := by
  unfold decodeLowZero
  split_ifs <;> simp [*]

theorem decodeFamily8_unknown_iff : decodeFamily8 w = .unknown w ↔ bits w 3 0 ∈ [0x8, 0x9, 0xA, 0xB, 0xC, 0xD, 0xF] := by
  refine ⟨fun h => ?_, decodeFamily8_unknown⟩
  have hlt : bits w 3 0 < 16 := by
    rw [bits_low_nibble]
    omega
  unfold decodeFamily8 at h
  generalize bits w 3 0 = low at h hlt ⊢
  interval_cases low <;> simp at h ⊢

theorem decodeFamilyE_unknown_iff : decodeFamilyE w = .unknown w ↔ bits w 7 0 ∉ [0x9E, 0xA1] := by
  refine ⟨fun h => ?_, decodeFamilyE_unknown⟩
  unfold decodeFamilyE at h
  split_ifs at h
  simp [*]

theorem decodeFamilyF_unknown_iff :
    decodeFamilyF w = .unknown w ↔ bits w 7 0 ∉ [0x07, 0x0A, 0x15, 0x18, 0x1E, 0x29, 0x33, 0x55, 0x65] := by
  refine ⟨fun h => ?_, decodeFamilyF_unknown⟩
  unfold decodeFamilyF at h
  split_ifs at h
  simp [*]

theorem family_lt (w : Word) : family w < 16 := by
  have := w.isLt
  rw [family_eq]
  omega

end

/-- Settles O1: the instruction's word decodes to it, and its two bytes join to that word. -/
theorem decodeOfEncodeIsTheInstruction : Obligations.DecodeOfEncodeIsTheInstruction := by
  unfold Obligations.DecodeOfEncodeIsTheInstruction
  refine fun i rest => ⟨decodeWord_encodeWord i, decode_cons_cons_ok_iff.mpr ⟨?_, rfl⟩⟩
  rw [wordOfBytes_split]
  exact decodeWord_encodeWord i

/-- Settles O2: each format puts the word together again from the fields its decoder read. -/
theorem encodeOfDecodeIsTheWord : Obligations.EncodeOfDecodeIsTheWord := by
  unfold Obligations.EncodeOfDecodeIsTheWord
  refine ⟨fun w i => encodeWord_of_decodeWord, fun high low rest after i h => ?_⟩
  obtain ⟨hd, rfl⟩ := decode_cons_cons_ok_iff.mp h
  simp only [encode, encodeWord_of_decodeWord hd, highByte_join, lowByte_join, and_self]

/-- Settles O3: a decoded word matches its instruction's row, a row's word decodes to the row's instruction, and decoding gives
one instruction only. -/
theorem knownWordsAreTheRowsOfTheMap : Obligations.KnownWordsAreTheRowsOfTheMap := by
  unfold Obligations.KnownWordsAreTheRowsOfTheMap
  refine ⟨fun w i h => ⟨row_mem_opcodeTable i, row_matchesWord h⟩, fun w r => exists_known_of_matchesWord,
    fun w q r hq hr mq mr => ?_⟩
  obtain ⟨i, hi, rfl⟩ := exists_known_of_matchesWord hq mq
  obtain ⟨j, hj, rfl⟩ := exists_known_of_matchesWord hr mr
  rw [hi] at hj
  cases hj
  rfl

/-- Settles O5: each family's sub-decoder answers unknown on its own group, and the other families never do. -/
theorem unknownWordsAreTheFiveGroups : Obligations.UnknownWordsAreTheFiveGroups := by
  unfold Obligations.UnknownWordsAreTheFiveGroups
  intro w
  have hlt := family_lt w
  rw [show bits w 15 12 = family w from rfl]
  unfold decodeWord
  generalize family w = op at hlt ⊢
  interval_cases op
  all_goals
    simp only [decodeFamily0_unknown_iff, decodeLowZero_unknown_iff, decodeFamily8_unknown_iff, decodeFamilyE_unknown_iff,
      decodeFamilyF_unknown_iff]
    simp

/-- Settles O7: the decoder evaluated on each word. -/
theorem wordsOfEachFormatDecode : Obligations.WordsOfEachFormatDecode := by
  unfold Obligations.WordsOfEachFormatDecode
  decide

end Sys2Proof
end

section
/-! PROOFS. Frames: what each operation on the state leaves unchanged, and, assembled from these, what each instruction does
(10_state.md section 8, the access table). -/

namespace Sys2Proof.Machine

/-! ## Frames in general -/

section

variable {s t u : State} {l l' : List Element}

theorem Element.same_trans {e : Element} (h : e.same s t) (h' : e.same t u) : e.same s u := by
  cases e <;> exact Eq.trans h' h

theorem changesOnly_refl (s : State) (l : List Element) : changesOnly s s l := fun e _ => by cases e <;> rfl

/-- What two transitions change is what one of them changes. -/
theorem changesOnly.trans (h : changesOnly s t l) (h' : changesOnly t u l') : changesOnly s u (l ++ l') :=
  fun e he => Element.same_trans (h e fun m => he (List.mem_append_left l' m)) (h' e fun m => he (List.mem_append_right l m))

theorem changesOnly.mono (h : changesOnly s t l) (sub : l ⊆ l') : changesOnly s t l' :=
  fun e he => h e fun m => he (sub m)

end

/-! ## One frame per operation -/

section

variable (s : State)

theorem doneAt_changesOnly (target : Word) : changesOnly s (s.doneAt target) [.pc, .mode] := by
  intro e he
  cases e with
  | pc | mode => exact absurd (by simp) he
  | _ => exact rfl

theorem wait_changesOnly (x : Reg) : changesOnly s (s.wait x) [.mode] := by
  intro e he
  cases e with
  | mode => exact absurd (by simp) he
  | _ => exact rfl

theorem raiseFatal_changesOnly (reason : FatalReason) (word : Option Word) :
    changesOnly s (s.raiseFatal reason word) [.mode] := by
  intro e he
  cases e with
  | mode => exact absurd (by simp) he
  | _ => exact rfl

theorem timerStep_changesOnly (status : Status) : changesOnly s (s.timerStep status) [.DT, .ST, .out] := by
  intro e he
  cases e with
  | DT | ST | out => exact absurd (by simp) he
  | _ => exact rfl

theorem noTimerStep_changesOnly (status : Status) : changesOnly s (s.noTimerStep status) [.out] := by
  intro e he
  cases e with
  | out => exact absurd (by simp) he
  | _ => exact rfl

theorem writeV_changesOnly (r : Reg) (b : Byte) : changesOnly s (s.writeV r b) [.V r] := by
  intro e he
  cases e with
  | V q =>
    have hq : q ≠ r := fun h => he (by simp [h])
    exact (writeV_readV s r b q).trans (if_neg hq)
  | _ => exact rfl

theorem flagThenResult_changesOnly (x y : Reg) (flag result : Byte → Byte → Byte) :
    changesOnly s (s.flagThenResult x y flag result) [.V x, .V 15] :=
  ((writeV_changesOnly s 15 _).trans (writeV_changesOnly _ x _)).mono (by simp)

theorem writeI_changesOnly (a : Word) : changesOnly s (s.writeI a) [.I] := by
  intro e he
  cases e with
  | I => exact absurd (by simp) he
  | _ => exact rfl

theorem countDraw_changesOnly : changesOnly s s.countDraw [.draws] := by
  intro e he
  cases e with
  | draws => exact absurd (by simp) he
  | _ => exact rfl

theorem dropTop_changesOnly : changesOnly s s.dropTop [.sp] := by
  intro e he
  cases e with
  | sp => exact absurd (by simp) he
  | _ => exact rfl

theorem pushPc_changesOnly (h : s.sp.val < 16) {j : Fin 16} (hj : j.val = s.sp.val) :
    changesOnly s (s.pushPc h) [.stack j, .sp] := by
  intro e he
  cases e with
  | sp => exact absurd (by simp) he
  | stack q =>
    have hq : q.val ≠ s.sp.val := fun hv => he (by simp [Fin.ext (hv.trans hj.symm)])
    exact (pushPc_slot s h q).trans (if_neg hq)
  | _ => exact rfl

theorem memWriteList_changesOnly (a : Nat) (bs : List Byte) :
    changesOnly s (s.memWriteList a bs) ((List.range bs.length).map fun k => .memory (a + k)) := by
  intro e he
  cases e with
  | memory q =>
    refine memWriteList_memRead_outside s a bs q ?_
    by_contra hq
    exact he (List.mem_map.mpr ⟨q - a, List.mem_range.mpr (by omega), by congr; omega⟩)
  | _ =>
    rw [memWriteList_mem_only]
    exact rfl

theorem mem_registersUpTo {x r : Reg} : .V r ∈ registersUpTo x ↔ r ≤ x := by
  simp [registersUpTo]

theorem loadRegisters_changesOnly (x : Reg) : changesOnly s (s.loadRegisters (x.val + 1)) (registersUpTo x) := by
  intro e he
  cases e with
  | V q =>
    have hq : ¬ q.val < x.val + 1 := fun h => he (mem_registersUpTo.mpr (Nat.le_of_lt_succ h))
    exact (loadRegisters_readV s _ (by omega) q).trans (if_neg hq)
  | _ =>
    rw [loadRegisters_V_only]
    exact rfl

/-- The framebuffer replaced and the redraw signal set, as 00E0 and DXYN do (R300, R301). -/
def State.withFrame (s : State) (g : Frame) : State := { s with gfx := g, drawFlag := true }

theorem gfx_mem_everyCell (k : Fin 2048) : .gfx k ∈ everyCell := by
  unfold everyCell
  exact List.mem_map.mpr ⟨k, List.mem_finRange k, rfl⟩

theorem withFrame_changesOnly (g : Frame) : changesOnly s (s.withFrame g) (everyCell ++ [.drawFlag]) := by
  intro e he
  cases e with
  | gfx k => exact absurd (List.mem_append_left _ (gfx_mem_everyCell k)) he
  | drawFlag => exact absurd (by simp) he
  | _ => exact rfl

theorem writeDT_changesOnly (b : Byte) : changesOnly s { s with DT := b } [.DT] := by
  intro e he
  cases e with
  | DT => exact absurd (by simp) he
  | _ => exact rfl

theorem writeST_changesOnly (b : Byte) : changesOnly s { s with ST := b } [.ST] := by
  intro e he
  cases e with
  | ST => exact absurd (by simp) he
  | _ => exact rfl

end

/-! ## What a completing instruction answers, one equation per condition -/

section

variable {s : State} {x y : Reg} {n : Rows}

theorem exec_opFX33_of_range (h : s.dataInRange 3 = true) :
    exec (.opFX33 x) s = .next (s.memWriteList (s.dataAddr 0) (decimalDigits (s.readV x))).done := if_pos h

theorem exec_opFX55_of_range (h : s.dataInRange (x.val + 1) = true) :
    exec (.opFX55 x) s = .next (s.memWriteList (s.dataAddr 0) (s.registersTo x)).done := if_pos h

theorem exec_opFX65_of_range (h : s.dataInRange (x.val + 1) = true) :
    exec (.opFX65 x) s = .next (s.loadRegisters (x.val + 1)).done := if_pos h

/-- The canvas after DXYN's sprite, drawn from the framebuffer with no collision yet (R301). -/
def State.drawn (s : State) (x y : Reg) (n : Rows) : Canvas :=
  drawRows (s.readV x) (s.readV y) 0 (s.gfx, false) (s.memReadList (s.dataAddr 0) n.val)

theorem exec_opDXYN_of_range (h : s.dataInRange n.val = true) :
    exec (.opDXYN x y n) s =
      .next ((s.withFrame (s.drawn x y n).1).writeF (flagByte (s.drawn x y n).2)).done := if_pos h

theorem keyOf_of_val {k : Fin 16} (h : (s.readV x).toNat = k.val) : s.keyOf x = some s.keys[k] := by
  simp [State.keyOf, h]

theorem exec_opEX9E_of_key {pressed : Bool} (h : s.keyOf x = some pressed) :
    exec (.opEX9E x) s = .next (s.doneSkipIf pressed) := by
  simp only [exec, execEX9E, h]

theorem exec_opEXA1_of_key {pressed : Bool} (h : s.keyOf x = some pressed) :
    exec (.opEXA1 x) s = .next (s.doneSkipIf !pressed) := by
  simp only [exec, execEXA1, h]

theorem exec_opFX0A_of_key {k : Fin 16} {rest : List (Fin 16)} (h : s.pressedKeys = k :: rest) :
    exec (.opFX0A x) s =
      .next (s.countDraw.writeV x (BitVec.ofNat 8 (chooseKey s.nextChoice k rest).val)).done := by
  simp only [exec, execFX0A, h]

end

/-! ## When an instruction is fatal -/

/-- The causes of the fatal errors that an execute phase raises (R402-R405). -/
inductive FatalCause (s : State) : Instr → FatalReason → Prop where
  | callFull (nnn : Addr) (full : s.sp.val = 16) : FatalCause s (.op2NNN nnn) .stackOverflow
  | returnEmpty (empty : s.sp.val = 0) : FatalCause s .op00EE .stackUnderflow
  | draw (x y : Reg) (n : Rows) (past : s.dataInRange n.val = false) : FatalCause s (.opDXYN x y n) .addressOutOfRange
  | digits (x : Reg) (past : s.dataInRange 3 = false) : FatalCause s (.opFX33 x) .addressOutOfRange
  | store (x : Reg) (past : s.dataInRange (x.val + 1) = false) : FatalCause s (.opFX55 x) .addressOutOfRange
  | load (x : Reg) (past : s.dataInRange (x.val + 1) = false) : FatalCause s (.opFX65 x) .addressOutOfRange
  | skipPressed (x : Reg) (noKey : s.keyOf x = none) : FatalCause s (.opEX9E x) .keyIndexOutOfRange
  | skipReleased (x : Reg) (noKey : s.keyOf x = none) : FatalCause s (.opEXA1 x) .keyIndexOutOfRange

section

variable {s t : State} {i : Instr} {r : FatalReason}

theorem dataInRange_eq_false_iff (s : State) (n : Nat) : s.dataInRange n = false ↔ 0 < n ∧ 4096 < s.I.toNat + n := by
  rw [← Bool.not_eq_true, dataInRange_iff]
  omega

theorem keyOf_eq_none_iff (s : State) (x : Reg) : s.keyOf x = none ↔ 15 < (s.readV x).toNat := by
  simp [State.keyOf]
  omega

theorem exec_of_fatalCause (h : FatalCause s i r) : exec i s = .next (s.raiseFatal r (some (encodeWord i))) := by
  cases h with
  | callFull nnn full => exact dif_neg (by omega)
  | returnEmpty empty => exact dif_neg (by omega)
  | draw _ _ _ past | digits _ past | store _ past | load _ past => exact if_neg (by simp [past])
  | skipPressed x noKey | skipReleased x noKey => simp only [exec, execEX9E, execEXA1, noKey]

/-- An instruction with no cause to be fatal completes, or is an FX0A that waits. -/
theorem fatalCause_of_exec_halted {f : FatalRecord} (ex : exec i s = .next t) (h : t.mode = .halted f) :
    FatalCause s i f.reason := by
  cases i with
  | op00EE =>
    simp only [exec, exec00EE] at ex
    split at ex <;> cases ex <;> cases h
    exact .returnEmpty (by omega)
  | op2NNN nnn =>
    simp only [exec, exec2NNN] at ex
    split at ex <;> cases ex <;> cases h
    exact .callFull nnn (by omega)
  | opDXYN x y n =>
    simp only [exec, execDXYN] at ex
    split at ex <;> cases ex <;> cases h
    exact .draw x y n (Bool.eq_false_iff.mpr ‹_›)
  | opFX33 x =>
    simp only [exec, execFX33] at ex
    split at ex <;> cases ex <;> cases h
    exact .digits x (Bool.eq_false_iff.mpr ‹_›)
  | opFX55 x =>
    simp only [exec, execFX55] at ex
    split at ex <;> cases ex <;> cases h
    exact .store x (Bool.eq_false_iff.mpr ‹_›)
  | opFX65 x =>
    simp only [exec, execFX65] at ex
    split at ex <;> cases ex <;> cases h
    exact .load x (Bool.eq_false_iff.mpr ‹_›)
  | opEX9E x =>
    simp only [exec, execEX9E] at ex
    split at ex <;> cases ex <;> cases h
    exact .skipPressed x ‹_›
  | opEXA1 x =>
    simp only [exec, execEXA1] at ex
    split at ex <;> cases ex <;> cases h
    exact .skipReleased x ‹_›
  | opFX0A x =>
    simp only [exec, execFX0A] at ex
    split at ex <;> cases ex <;> cases h
  | _ =>
    cases ex
    cases h

theorem fatalWith_of_fatalCause (h : FatalCause s i r) : fatalWith i s r :=
  ⟨_, exec_of_fatalCause h, rfl, raiseFatal_changesOnly s r _⟩

end

/-! ## What each instruction writes -/

/-- What an instruction that completes writes (R49, with `draws`, the model's own). -/
def Instr.writes (s : State) : Instr → List Element
  | .op00E0 => everyCell ++ [.drawFlag, .pc, .mode]
  | .op00EE => [.sp, .pc, .mode]
  | .op2NNN _ => [.stack (Fin.ofNat 16 s.sp.val), .sp, .pc, .mode]
  | .op1NNN _ | .opBNNN _ | .op3XNN _ _ | .op4XNN _ _ | .op5XY0 _ _ | .op9XY0 _ _ | .opEX9E _ | .opEXA1 _ => [.pc, .mode]
  | .op6XNN x _ | .op7XNN x _ | .op8XY0 x _ | .op8XY1 x _ | .op8XY2 x _ | .op8XY3 x _ | .opFX07 x => [.V x, .pc, .mode]
  | .op8XY4 x _ | .op8XY5 x _ | .op8XY6 x _ | .op8XY7 x _ | .op8XYE x _ => [.V x, .V 15, .pc, .mode]
  | .opCXNN x _ | .opFX0A x => [.V x, .pc, .mode, .draws]
  | .opANNN _ | .opFX1E _ | .opFX29 _ => [.I, .pc, .mode]
  | .opDXYN _ _ _ => everyCell ++ [.V 15, .drawFlag, .pc, .mode]
  | .opFX15 _ => [.DT, .pc, .mode]
  | .opFX18 _ => [.ST, .pc, .mode]
  | .opFX33 _ => s.bytesAtI 3 ++ [.pc, .mode]
  | .opFX55 x => s.bytesAtI (x.val + 1) ++ [.pc, .mode]
  | .opFX65 x => registersUpTo x ++ [.pc, .mode]

section

variable {s t : State} {i : Instr}

theorem mode_mem_writes (s : State) (i : Instr) : Element.mode ∈ Instr.writes s i := by
  cases i <;> simp [Instr.writes]

/-- A store of n bytes at I changes the bytes at I, I+1, … only. -/
theorem memWriteList_changesOnly_bytesAtI {bs : List Byte} {n : Nat} (h : bs.length = n) :
    changesOnly s (s.memWriteList (s.dataAddr 0) bs) (s.bytesAtI n) :=
  h ▸ memWriteList_changesOnly s (s.dataAddr 0) bs

/-- An instruction changes at most what it writes when it completes: a wait and a fatal error change mode alone. -/
theorem exec_changesOnly (h : exec i s = .next t) : changesOnly s t (Instr.writes s i) := by
  have hfatal (r : FatalReason) (w : Option Word) : changesOnly s (s.raiseFatal r w) (Instr.writes s i) :=
    (raiseFatal_changesOnly s r w).mono (by simp [mode_mem_writes])
  cases i with
  | op00E0 =>
    cases h
    exact ((withFrame_changesOnly s _).trans (doneAt_changesOnly _ _)).mono (by simp [Instr.writes])
  | op00EE =>
    simp only [exec, exec00EE] at h
    split at h <;> cases h
    · exact (dropTop_changesOnly s).trans (doneAt_changesOnly _ _)
    · exact hfatal _ _
  | op2NNN nnn =>
    simp only [exec, exec2NNN] at h
    split at h <;> cases h
    next hfree =>
      exact (pushPc_changesOnly s hfree (Nat.mod_eq_of_lt hfree)).trans (doneAt_changesOnly _ _)
    · exact hfatal _ _
  | op1NNN | opBNNN | op3XNN | op4XNN | op5XY0 | op9XY0 =>
    cases h
    exact doneAt_changesOnly s _
  | opEX9E x | opEXA1 x =>
    simp only [exec, execEX9E, execEXA1] at h
    split at h <;> cases h
    · exact doneAt_changesOnly s _
    · exact hfatal _ _
  | op6XNN x | op7XNN x | op8XY0 x | op8XY1 x | op8XY2 x | op8XY3 x | opFX07 x =>
    cases h
    exact (writeV_changesOnly s x _).trans (doneAt_changesOnly _ _)
  | op8XY4 x y | op8XY5 x y | op8XY7 x y =>
    cases h
    exact (flagThenResult_changesOnly s x y _ _).trans (doneAt_changesOnly _ _)
  | op8XY6 x | op8XYE x =>
    cases h
    exact (flagThenResult_changesOnly s x x _ _).trans (doneAt_changesOnly _ _)
  | opCXNN x =>
    cases h
    exact ((countDraw_changesOnly s).trans ((writeV_changesOnly _ x _).trans (doneAt_changesOnly _ _))).mono
      (by simp [Instr.writes])
  | opFX0A x =>
    simp only [exec, execFX0A] at h
    split at h <;> cases h
    · exact (wait_changesOnly s x).mono (by simp [Instr.writes])
    · exact ((countDraw_changesOnly s).trans ((writeV_changesOnly _ x _).trans (doneAt_changesOnly _ _))).mono
        (by simp [Instr.writes])
  | opANNN | opFX1E | opFX29 =>
    cases h
    exact (writeI_changesOnly s _).trans (doneAt_changesOnly _ _)
  | opDXYN x y n =>
    simp only [exec, execDXYN] at h
    split at h <;> cases h
    · exact ((withFrame_changesOnly s _).trans ((writeV_changesOnly _ 15 _).trans (doneAt_changesOnly _ _))).mono
        (by simp [Instr.writes])
    · exact hfatal _ _
  | opFX15 =>
    cases h
    exact (writeDT_changesOnly s _).trans (doneAt_changesOnly _ _)
  | opFX18 =>
    cases h
    exact (writeST_changesOnly s _).trans (doneAt_changesOnly _ _)
  | opFX33 x =>
    simp only [exec, execFX33] at h
    split at h <;> cases h
    · exact (memWriteList_changesOnly_bytesAtI rfl).trans (doneAt_changesOnly _ _)
    · exact hfatal _ _
  | opFX55 x =>
    simp only [exec, execFX55] at h
    split at h <;> cases h
    · exact (memWriteList_changesOnly_bytesAtI (registersTo_length s x)).trans (doneAt_changesOnly _ _)
    · exact hfatal _ _
  | opFX65 x =>
    simp only [exec, execFX65] at h
    split at h <;> cases h
    · exact (loadRegisters_changesOnly s x).trans (doneAt_changesOnly _ _)
    · exact hfatal _ _

end

end Sys2Proof.Machine
end

section
/-! PROOFS. The invariants of 10_state.md rule R50: each operation keeps them in its range, so each instruction, each Step and
each transaction does. -/

namespace Sys2Proof.Machine

section

variable {s t : State} {i : Instr}

/-! ## Operations -/

theorem inv_doneAt {target : Word} (h : s.inv) (ht : target.toNat ≤ 0x10FE) : (s.doneAt target).inv := by
  obtain ⟨hmem, hI, _, hstack⟩ := h
  exact ⟨hmem, hI, ht, hstack⟩

/-- The address after a word that could be fetched, or after two, is in range. -/
theorem pc_add_toNat_le {k : Nat} (hpc : s.pc.toNat + 1 ≤ 0xFFF) (hk : k ≤ 4) :
    (s.pc + BitVec.ofNat 16 k).toNat ≤ 0x10FE := by
  rw [BitVec.toNat_add, BitVec.toNat_ofNat]
  omega

theorem inv_done (h : s.inv) (hpc : s.pc.toNat + 1 ≤ 0xFFF) : s.done.inv :=
  inv_doneAt h (pc_add_toNat_le (k := 2) hpc (by decide))

theorem inv_doneSkipIf {skip : Bool} (h : s.inv) (hpc : s.pc.toNat + 1 ≤ 0xFFF) : (s.doneSkipIf skip).inv := by
  cases skip
  · exact inv_doneAt h (pc_add_toNat_le (k := 2) hpc (by decide))
  · exact inv_doneAt h (pc_add_toNat_le (k := 4) hpc (by decide))

theorem inv_writeI {a : Word} (h : s.inv) (ha : a.toNat ≤ 0xFFF) : (s.writeI a).inv := by
  obtain ⟨hmem, _, hpc, hstack⟩ := h
  exact ⟨hmem, ha, hpc, hstack⟩

theorem inv_memWriteList {a : Nat} {bs : List Byte} (h : s.inv) (ha : a + bs.length ≤ 4096) : (s.memWriteList a bs).inv := by
  obtain ⟨hmem, hI, hpc, hstack⟩ := h
  refine ⟨memWriteList_wf s a bs hmem ha, ?_⟩
  rw [memWriteList_mem_only]
  exact ⟨hI, hpc, hstack⟩

theorem inv_loadRegisters {n : Nat} (h : s.inv) : (s.loadRegisters n).inv := by
  rw [loadRegisters_V_only]
  exact h

/-- A push puts the address of a word that was fetched into the one slot that comes into use. -/
theorem inv_pushPc (h : s.inv) (hpc : s.pc.toNat + 1 ≤ 0xFFF) (hsp : s.sp.val < 16) : (s.pushPc hsp).inv := by
  obtain ⟨hmem, hI, hpc', hstack⟩ := h
  refine ⟨hmem, hI, hpc', fun j hj => ?_⟩
  rw [pushPc_slot]
  split_ifs with hslot
  · omega
  · exact hstack j (by simp at hj; omega)

theorem inv_dropTop (h : s.inv) : s.dropTop.inv := by
  obtain ⟨hmem, hI, hpc, hstack⟩ := h
  exact ⟨hmem, hI, hpc, fun j hj => hstack j (by simp at hj; omega)⟩

theorem topOfStack_toNat_le (h : s.inv) (hsp : 0 < s.sp.val) : (s.topOfStack hsp).toNat ≤ 0xFFE := by
  obtain ⟨_, _, _, hstack⟩ := h
  exact hstack ⟨s.sp.val - 1, by omega⟩ (by simp; omega)

/-! ## Instructions -/

theorem zextAddr_toNat_le (nnn : Addr) : (zextAddr nnn).toNat ≤ 0xFFF := by
  have := nnn.isLt
  rw [zextAddr_toNat]
  omega

theorem zextByte_toNat (b : Byte) : (zextByte b).toNat = b.toNat := BitVec.toNat_setWidth_of_le (by decide)

/-- V0 + NNN is an exact sum (R187). -/
theorem zextByte_add_zextAddr_toNat (b : Byte) (nnn : Addr) : (zextByte b + zextAddr nnn).toNat = b.toNat + nnn.toNat := by
  have := b.isLt
  have := nnn.isLt
  rw [BitVec.toNat_add, zextByte_toNat, zextAddr_toNat]
  omega

/-- Five times a byte is an exact product (R262). -/
theorem zextByte_mul_five_toNat (b : Byte) : (zextByte b * 5).toNat = b.toNat * 5 := by
  have := b.isLt
  rw [BitVec.toNat_mul, zextByte_toNat]
  simp
  omega

theorem dataAddr_zero_add_le {n : Nat} (h : s.dataInRange n = true) (hn : 0 < n) : s.dataAddr 0 + n ≤ 4096 := by
  rw [dataInRange_iff] at h
  simp only [State.dataAddr]
  omega

/-- Every instruction that could be fetched keeps the invariants. -/
theorem exec_inv (h : s.inv) (hpc : s.pc.toNat + 1 ≤ 0xFFF) (ex : exec i s = .next t) : t.inv := by
  cases i with
  | op00EE =>
    simp only [exec, exec00EE] at ex
    split at ex <;> cases ex
    next hsp =>
      have htop := topOfStack_toNat_le h hsp
      refine inv_doneAt (inv_dropTop h) ?_
      rw [BitVec.toNat_add]
      simp
      omega
    · exact h
  | op1NNN nnn =>
    cases ex
    exact inv_doneAt h ((zextAddr_toNat_le nnn).trans (by decide))
  | op2NNN nnn =>
    simp only [exec, exec2NNN] at ex
    split at ex <;> cases ex
    next hsp => exact inv_doneAt (inv_pushPc h hpc hsp) ((zextAddr_toNat_le nnn).trans (by decide))
    · exact h
  | opBNNN nnn =>
    cases ex
    refine inv_doneAt h ?_
    have := (s.readV 0).isLt
    have := nnn.isLt
    rw [zextByte_add_zextAddr_toNat]
    omega
  | op3XNN | op4XNN | op5XY0 | op9XY0 =>
    cases ex
    exact inv_doneSkipIf h hpc
  | opEX9E | opEXA1 =>
    simp only [exec, execEX9E, execEXA1] at ex
    split at ex <;> cases ex
    · exact inv_doneSkipIf h hpc
    · exact h
  | opANNN nnn =>
    cases ex
    exact inv_done (inv_writeI h (zextAddr_toNat_le nnn)) hpc
  | opFX1E x =>
    cases ex
    refine inv_done (inv_writeI h ?_) hpc
    rw [BitVec.toNat_ofNat]
    omega
  | opFX29 x =>
    cases ex
    refine inv_done (inv_writeI h ?_) hpc
    have := (s.readV x).isLt
    rw [zextByte_mul_five_toNat]
    omega
  | opDXYN =>
    simp only [exec, execDXYN] at ex
    split at ex <;> cases ex
    · exact inv_done h hpc
    · exact h
  | opFX0A =>
    simp only [exec, execFX0A] at ex
    split at ex <;> cases ex
    · exact h
    · exact inv_done h hpc
  | opFX33 x =>
    simp only [exec, execFX33] at ex
    split at ex <;> cases ex
    next hr =>
      exact inv_done (inv_memWriteList h (dataAddr_zero_add_le hr (Nat.succ_pos _))) (by simpa using hpc)
    · exact h
  | opFX55 x =>
    simp only [exec, execFX55] at ex
    split at ex <;> cases ex
    next hr =>
      have hlen : s.dataAddr 0 + (s.registersTo x).length ≤ 4096 := by
        rw [registersTo_length]
        exact dataAddr_zero_add_le hr (Nat.succ_pos _)
      exact inv_done (inv_memWriteList h hlen) (by simpa using hpc)
    · exact h
  | opFX65 x =>
    simp only [exec, execFX65] at ex
    split at ex <;> cases ex
    · refine inv_done (inv_loadRegisters h) ?_
      rw [loadRegisters_V_only]
      exact hpc
    · exact h
  | _ =>
    cases ex
    exact inv_done h hpc

/-! ## Steps and transactions -/

theorem step_inv (h : s.inv) (hstep : step s = .next t) : t.inv := by
  cases step_cases hstep with
  | unknown w live fetch dec => exact inv_done h (fetch_some fetch)
  | done w i u live fetch dec ex running => exact exec_inv (t := u) h (fetch_some fetch) ex
  | _ => exact h

theorem step_isNext (s : State) : ∃ t, step s = .next t := by
  obtain ⟨t, ht, _⟩ := step_outcome s
  exact ⟨t, ht⟩

theorem step_safe (h : s.inv) : Result.safe (step s) := by
  obtain ⟨t, ht⟩ := step_isNext s
  rw [ht]
  exact step_inv h ht

/-- The state that Construct and Reset leave has the invariants, whatever the glyph table. -/
theorem construct_inv (g : GlyphTable) : (construct g).inv := by
  refine ⟨rfl, Nat.zero_le _, show (0x200 : Word).toNat ≤ 0x10FE by decide, fun j hj => ?_⟩
  exact absurd hj (Nat.not_lt_zero _)

theorem resetTx_inv (s : State) : (resetTx s).inv := construct_inv s.glyphs

theorem loadTx_inv (h : s.inv) (bytes : List Byte) : (loadTx s bytes).1.inv := by
  by_cases hlen : bytes.length ≤ 3584
  · rw [loadTx_fits s bytes hlen]
    exact inv_memWriteList h (by omega)
  · rw [loadTx_too_long s bytes (by omega)]
    exact h

end

/-- Settles O55: every instruction keeps the invariants from a pc it could be fetched at; the other ends of a Step change
neither memory, I nor the stack. -/
theorem invariantKeptByEveryStep : Obligations.InvariantKeptByEveryStep := by
  unfold Obligations.InvariantKeptByEveryStep
  exact fun s t => step_inv

/-- Settles O56: by transaction; SetKeys and ClearDrawFlag touch nothing the invariants speak of. -/
theorem invariantKeptByEveryTransaction : Obligations.InvariantKeptByEveryTransaction := by
  unfold Obligations.InvariantKeptByEveryTransaction
  intro s tx h
  cases tx with
  | reset => exact resetTx_inv s
  | load bytes => exact loadTx_inv h bytes
  | step => exact step_safe h
  | setKeys k => exact h
  | clearDrawFlag => exact h

/-- Settles O57: the reset state is the one constructed with the default glyph table. -/
theorem invariantHoldsAfterConstruct : Obligations.InvariantHoldsAfterConstruct := by
  unfold Obligations.InvariantHoldsAfterConstruct
  exact ⟨construct_inv, construct_inv defaultGlyphs⟩

/-- Settles O14: each case of a Step answers a next state. -/
theorem everyStepAnswersANextState : Obligations.EveryStepAnswersANextState := by
  unfold Obligations.EveryStepAnswersANextState
  exact step_isNext

end Sys2Proof.Machine
end

section
/-! PROOFS. The Step (40_cycle.md rules R140-R157): how it ends for each outcome of its instruction, when it is fatal, where pc and
mode go, and who writes what. -/

namespace Sys2Proof.Machine

section

variable {s t : State} {i : Instr} {w : Word}

/-! ## How a Step ends -/

theorem step_halted {f : FatalRecord} (h : s.mode = .halted f) : step s = .next (s.noTimerStep (.halted f)) := by
  simp only [step, cycle, h]

theorem step_fetchFault (hs : s.mode.isHalted = false) (h : s.fetch = none) :
    step s = .next
      ((s.raiseFatal .addressOutOfRange none).noTimerStep (.fatal ⟨.addressOutOfRange, s.pc, none⟩)) := by
  simp only [step_of_live ((isHalted_eq_false_iff _).mp hs), runStep, h]
  rfl

/-- The Step of an instruction is its execute phase and the end its mode calls for (R145). -/
theorem step_of_exec (hs : s.mode.isHalted = false) (hn : s.nextInstr = some i) (ex : exec i s = .next t) :
    step s = .next t.finish := by
  obtain ⟨w, hw, hd⟩ := (nextInstr_eq_some_iff s i).mp hn
  rw [step_known ((isHalted_eq_false_iff _).mp hs) hw hd, ex, Result.map]

/-! ## When a Step is fatal (R402-R405, R408) -/

/-- A Step is fatal exactly when the fetch fails or its instruction has a cause to be. -/
theorem step_fatal_iff (hs : s.mode.isHalted = false) (r : FatalReason) :
    (∃ t f b, step s = .next t ∧ t.out = some ⟨.fatal f, b⟩ ∧ f.reason = r) ↔
      (s.fetch = none ∧ r = .addressOutOfRange) ∨ ∃ i, s.nextInstr = some i ∧ FatalCause s i r := by
  constructor
  · rintro ⟨t, f, b, hstep, hout, rfl⟩
    cases step_cases hstep with
    | fetchFault live fetch =>
      cases hout
      exact .inl ⟨fetch, rfl⟩
    | fatal w i reason live fetch dec ex =>
      cases hout
      exact .inr ⟨i, nextInstr_of_known fetch dec, fatalCause_of_exec_halted (f := ⟨reason, s.pc, _⟩) ex rfl⟩
    | _ => cases hout
  · rintro (⟨hf, rfl⟩ | ⟨i, hn, hc⟩)
    · exact ⟨_, _, _, step_fetchFault hs hf, rfl, rfl⟩
    · exact ⟨_, _, _, step_of_exec hs hn (exec_of_fatalCause hc), rfl, rfl⟩

/-! ## Where pc goes (R148) -/

/-- The places a completed instruction can leave pc at. -/
inductive NextPc (s : State) : Instr → Word → Prop where
  | next (i : Instr) : NextPc s i (s.pc + 2)
  | skip (i : Instr) (x y : Reg) (nn : Byte)
      (isSkip : i ∈ [.op3XNN x nn, .op4XNN x nn, .op5XY0 x y, .op9XY0 x y, .opEX9E x, .opEXA1 x]) : NextPc s i (s.pc + 4)
  | jump (nnn : Addr) : NextPc s (.op1NNN nnn) (zextAddr nnn)
  | call (nnn : Addr) : NextPc s (.op2NNN nnn) (zextAddr nnn)
  | computed (nnn : Addr) : NextPc s (.opBNNN nnn) (zextByte (s.readV 0) + zextAddr nnn)
  | back (h : 0 < s.sp.val) : NextPc s .op00EE (s.topOfStack h + 2)

theorem NextPc.of_skipIf {x y : Reg} {nn : Byte} (skip : Bool)
    (isSkip : i ∈ [.op3XNN x nn, .op4XNN x nn, .op5XY0 x y, .op9XY0 x y, .opEX9E x, .opEXA1 x]) :
    NextPc s i (s.doneSkipIf skip).pc := by
  cases skip
  · exact .next i
  · exact .skip i x y nn isSkip

theorem exec_nextPc (ex : exec i s = .next t) (running : t.mode = .running) : NextPc s i t.pc := by
  cases i with
  | op00EE =>
    simp only [exec, exec00EE] at ex
    split at ex <;> cases ex
    · exact .back _
    · cases running
  | op1NNN nnn =>
    cases ex
    exact .jump nnn
  | op2NNN nnn =>
    simp only [exec, exec2NNN] at ex
    split at ex <;> cases ex
    · exact .call nnn
    · cases running
  | opBNNN nnn =>
    cases ex
    exact .computed nnn
  | op3XNN x nn | op4XNN x nn =>
    cases ex
    exact .of_skipIf (x := x) (y := x) (nn := nn) _ (by simp)
  | op5XY0 x y | op9XY0 x y =>
    cases ex
    exact .of_skipIf (x := x) (y := y) (nn := 0) _ (by simp)
  | opEX9E x | opEXA1 x =>
    simp only [exec, execEX9E, execEXA1] at ex
    split at ex <;> cases ex
    · exact .of_skipIf (x := x) (y := x) (nn := 0) _ (by simp)
    · cases running
  | opFX33 | opFX55 =>
    simp only [exec, execFX33, execFX55] at ex
    split at ex <;> cases ex
    · rw [done_pc, memWriteList_pc]
      exact .next _
    · cases running
  | opFX65 =>
    simp only [exec, execFX65] at ex
    split at ex <;> cases ex
    · rw [done_pc, loadRegisters_V_only]
      exact .next _
    · cases running
  | opDXYN =>
    simp only [exec, execDXYN] at ex
    split at ex <;> cases ex
    · exact .next _
    · cases running
  | opFX0A =>
    simp only [exec, execFX0A] at ex
    split at ex <;> cases ex
    · cases running
    · exact .next _
  | _ =>
    cases ex
    exact .next _

/-! ## Timers -/

theorem exec_ST (hi : ∀ x, i ≠ .opFX18 x) (ex : exec i s = .next t) : t.ST = s.ST := by
  refine exec_changesOnly ex .ST ?_
  cases i with
  | opFX18 x => exact absurd rfl (hi x)
  | _ => simp [Instr.writes, everyCell, registersUpTo, State.bytesAtI]

theorem timerStep_beeped (status : Status) : (s.timerStep status).beeped = true ↔ s.ST = 1 := by
  simp [State.beeped]

/-- A Step into Halted, or taken in it, takes no timer step and does not beep. -/
theorem step_halted_timers (h : step s = .next t) (ht : t.mode.isHalted = true) :
    t.ST = s.ST ∧ t.DT = s.DT ∧ t.beeped = false := by
  cases step_cases h with
  | halted | fetchFault | fatal => exact ⟨rfl, rfl, rfl⟩
  | unknown w live fetch dec => cases ht
  | done w i u live fetch dec ex running =>
    rw [timerStep_mode, running] at ht
    cases ht
  | wait w x live fetch dec none => cases ht

/-! ## Mode and output, which a Step does not read -/

/-- The state with another mode and another output of the last Step. -/
def State.withModeOut (s : State) (m : Mode) (o : Option StepOutput) : State := { s with mode := m, out := o }

/-- The state with another output of the last Step. -/
def State.withOut (s : State) (o : Option StepOutput) : State := { s with out := o }

section

variable (s : State) (m : Mode) (o : Option StepOutput)

theorem memWriteList_withModeOut (a : Nat) (bs : List Byte) :
    (s.withModeOut m o).memWriteList a bs = (s.memWriteList a bs).withModeOut m o := by
  induction bs generalizing s a with
  | nil => rfl
  | cons b rest ih => exact ih (s.memWrite a b) (a + 1)

theorem loadRegisters_withModeOut (n : Nat) :
    (s.withModeOut m o).loadRegisters n = (s.loadRegisters n).withModeOut m o := by
  induction n with
  | zero => rfl
  | succ n ih =>
    rw [State.loadRegisters, ih]
    rfl

/-- An execute phase sets mode whatever it was and hands the output on: it does the same whatever they are. -/
theorem exec_withModeOut (i : Instr) :
    exec i (s.withModeOut m o) = Result.map (State.withOut · o) (exec i s) := by
  cases i with
  | op00EE =>
    simp only [exec, exec00EE, apply_dite (Result.map _)]
    rfl
  | op2NNN nnn =>
    simp only [exec, exec2NNN, apply_dite (Result.map _)]
    rfl
  | opDXYN x y n =>
    simp only [exec, execDXYN, apply_ite (Result.map _)]
    rfl
  | opFX33 x =>
    simp only [exec, execFX33, memWriteList_withModeOut, apply_ite (Result.map _)]
    rfl
  | opFX55 x =>
    simp only [exec, execFX55, memWriteList_withModeOut, apply_ite (Result.map _)]
    rfl
  | opFX65 x =>
    simp only [exec, execFX65, loadRegisters_withModeOut, apply_ite (Result.map _)]
    rfl
  | opEX9E x | opEXA1 x =>
    simp only [exec, execEX9E, execEXA1, show (s.withModeOut m o).keyOf x = s.keyOf x from rfl]
    cases s.keyOf x <;> rfl
  | opFX0A x =>
    simp only [exec, execFX0A, show (s.withModeOut m o).pressedKeys = s.pressedKeys from rfl]
    cases s.pressedKeys <;> rfl
  | _ => rfl

theorem finish_withOut : (s.withOut o).finish = s.finish := by
  simp only [State.finish, show (s.withOut o).mode = s.mode from rfl]
  split <;> rfl

theorem runStep_withModeOut : runStep (s.withModeOut m o) = runStep s := by
  simp only [runStep, show (s.withModeOut m o).fetch = s.fetch from rfl]
  cases s.fetch with
  | none => rfl
  | some w =>
    simp only [runWord, exec_withModeOut]
    cases decodeWord w with
    | unknown u => rfl
    | known i =>
      cases hr : exec i s with
      | next t => simp only [hr, Result.map, finish_withOut]
      | fault r => simp only [hr, Result.map]
      | refused r => simp only [hr, Result.map]

end

/-! ## Memory -/

theorem exec_mem (hi : ∀ x, i ≠ .opFX33 x ∧ i ≠ .opFX55 x) (ex : exec i s = .next t) : t.mem = s.mem := by
  cases i with
  | opFX33 x => exact absurd rfl (hi x).1
  | opFX55 x => exact absurd rfl (hi x).2
  | op00EE | op2NNN | opDXYN | opEX9E | opEXA1 | opFX0A =>
    simp only [exec, exec00EE, exec2NNN, execDXYN, execEX9E, execEXA1, execFX0A] at ex
    split at ex <;> cases ex <;> rfl
  | opFX65 x =>
    simp only [exec, execFX65] at ex
    split at ex <;> cases ex
    · rw [done_mem, loadRegisters_V_only]
    · rfl
  | _ =>
    cases ex
    rfl

/-! ## Who writes what -/

/-- A Step is its instruction, or, without one, at most a move of pc and mode; and then the end that touches the timers and the
output only. -/
theorem step_body (h : step s = .next t) :
    ∃ u, (∃ status, t = u.timerStep status ∨ t = u.noTimerStep status) ∧
      (changesOnly s u [.pc, .mode] ∧ u.mem = s.mem ∨ ∃ i, s.nextInstr = some i ∧ exec i s = .next u) := by
  cases step_cases h with
  | halted f mode => exact ⟨s, ⟨_, .inr rfl⟩, .inl ⟨changesOnly_refl s _, rfl⟩⟩
  | fetchFault live fetch =>
    exact ⟨_, ⟨_, .inr rfl⟩, .inl ⟨(raiseFatal_changesOnly s _ _).mono (by simp), rfl⟩⟩
  | unknown w live fetch dec => exact ⟨_, ⟨_, .inl rfl⟩, .inl ⟨doneAt_changesOnly s _, rfl⟩⟩
  | done w i u live fetch dec ex running => exact ⟨u, ⟨_, .inl rfl⟩, .inr ⟨i, nextInstr_of_known fetch dec, ex⟩⟩
  | wait w x live fetch dec none =>
    exact ⟨_, ⟨_, .inl rfl⟩, .inr ⟨_, nextInstr_of_known fetch dec, exec_FX0A_of_no_key none⟩⟩
  | fatal w i reason live fetch dec ex => exact ⟨_, ⟨_, .inr rfl⟩, .inr ⟨i, nextInstr_of_known fetch dec, ex⟩⟩

theorem end_changesOnly {u : State} (h : ∃ status, t = u.timerStep status ∨ t = u.noTimerStep status) :
    changesOnly u t [.DT, .ST, .out] := by
  obtain ⟨status, rfl | rfl⟩ := h
  · exact timerStep_changesOnly u status
  · exact (noTimerStep_changesOnly u status).mono (by simp)

/-- What a Step changes, besides pc, mode, the timers and the output, its instruction writes. -/
theorem step_writer (h : step s = .next t) {e : Element} (he : e ∉ [.pc, .mode, .DT, .ST, .out]) (hne : ¬ e.same s t) :
    ∃ i, s.nextInstr = some i ∧ e ∈ Instr.writes s i := by
  obtain ⟨u, hend, hidle | ⟨i, hn, ex⟩⟩ := step_body h
  · exact absurd (hidle.1.trans (end_changesOnly hend) e he) hne
  · refine ⟨i, hn, ?_⟩
    by_contra hw
    exact hne (Element.same_trans (exec_changesOnly ex e hw) (end_changesOnly hend e (by simp at he ⊢; tauto)))

theorem step_mem_writer (h : step s = .next t) (hne : t.mem ≠ s.mem) :
    ∃ x, s.nextInstr = some (.opFX33 x) ∨ s.nextInstr = some (.opFX55 x) := by
  obtain ⟨u, ⟨status, hend⟩, hbody⟩ := step_body h
  have hu : t.mem = u.mem := by rcases hend with rfl | rfl <;> rfl
  rw [hu] at hne
  obtain ⟨_, hmem⟩ | ⟨i, hn, ex⟩ := hbody
  · exact absurd hmem hne
  · by_contra hi
    refine hne (exec_mem (fun x => ?_) ex)
    simpa [hn] using not_exists.mp hi x

theorem countDown_toNat_of_ne {b : Byte} (h : countDown b ≠ b) : (countDown b).toNat + 1 = b.toNat := by
  have h0 : (countDown b).toNat ≠ b.toNat := fun e => h (BitVec.eq_of_toNat_eq e)
  rw [countDown_toNat] at h0 ⊢
  omega

/-- A timer that a Step changes and that neither its instruction nor an idle Step writes has counted down by one. -/
theorem step_timer_toNat {timer : State → Byte} (hdown : ∀ u status, timer (u.timerStep status) = countDown (timer u))
    (hkept : ∀ u status, timer (u.noTimerStep status) = timer u)
    (hidle : ∀ u, changesOnly s u [.pc, .mode] → timer u = timer s)
    (hexec : ∀ i u, s.nextInstr = some i → exec i s = .next u → timer u = timer s)
    (h : step s = .next t) (hne : timer t ≠ timer s) : (timer t).toNat + 1 = (timer s).toNat := by
  obtain ⟨u, hend, hbody⟩ := step_body h
  have hu : timer u = timer s := by
    obtain ⟨hframe, _⟩ | ⟨i, hn, ex⟩ := hbody
    · exact hidle u hframe
    · exact hexec i u hn ex
  obtain ⟨status, rfl | rfl⟩ := hend
  · rw [hdown, hu] at hne ⊢
    exact countDown_toNat_of_ne hne
  · exact absurd ((hkept u status).trans hu) hne

theorem step_DT_writer (h : step s = .next t) (hne : t.DT ≠ s.DT) :
    (∃ x, s.nextInstr = some (.opFX15 x)) ∨ t.DT.toNat + 1 = s.DT.toNat := by
  by_cases hx : ∃ x, s.nextInstr = some (.opFX15 x)
  · exact .inl hx
  · exact .inr (step_timer_toNat (timer := State.DT) (fun _ _ => rfl) (fun _ _ => rfl) (fun u hu => hu .DT (by simp))
      (fun i u hn ex => exec_DT (fun x hi => hx ⟨x, hi ▸ hn⟩) ex) h hne)

theorem step_ST_writer (h : step s = .next t) (hne : t.ST ≠ s.ST) :
    (∃ x, s.nextInstr = some (.opFX18 x)) ∨ t.ST.toNat + 1 = s.ST.toNat := by
  by_cases hx : ∃ x, s.nextInstr = some (.opFX18 x)
  · exact .inl hx
  · exact .inr (step_timer_toNat (timer := State.ST) (fun _ _ => rfl) (fun _ _ => rfl) (fun u hu => hu .ST (by simp))
      (fun i u hn ex => exec_ST (fun x hi => hx ⟨x, hi ▸ hn⟩) ex) h hne)

/-- No Step changes the parameter GLYPH_TABLE (R36). -/
theorem step_glyphs (h : step s = .next t) : t.glyphs = s.glyphs := by
  by_contra hne
  obtain ⟨i, _, hw⟩ := step_writer h (e := .glyphs) (by simp) hne
  cases i <;> simp [Instr.writes, everyCell, registersUpTo, State.bytesAtI] at hw

/-! ## The writers of each element (the access table of R49) -/

theorem writer_I (h : .I ∈ Instr.writes s i) : (∃ nnn, i = .opANNN nnn) ∨ ∃ x, i = .opFX1E x ∨ i = .opFX29 x := by
  cases i with
  | opANNN | opFX1E | opFX29 => simp
  | _ => simp [Instr.writes, everyCell, registersUpTo, State.bytesAtI] at h

theorem writer_stack {j : Fin 16} (h : .stack j ∈ Instr.writes s i) : ∃ nnn, i = .op2NNN nnn := by
  cases i with
  | op2NNN => simp
  | _ => simp [Instr.writes, everyCell, registersUpTo, State.bytesAtI] at h

theorem writer_sp (h : .sp ∈ Instr.writes s i) : i = .op00EE ∨ ∃ nnn, i = .op2NNN nnn := by
  cases i with
  | op00EE | op2NNN => simp
  | _ => simp [Instr.writes, everyCell, registersUpTo, State.bytesAtI] at h

theorem writer_gfx {k : Fin 2048} (h : .gfx k ∈ Instr.writes s i) : i = .op00E0 ∨ ∃ x y n, i = .opDXYN x y n := by
  cases i with
  | op00E0 | opDXYN => simp
  | _ => simp [Instr.writes, registersUpTo, State.bytesAtI] at h

theorem writer_drawFlag (h : .drawFlag ∈ Instr.writes s i) : i = .op00E0 ∨ ∃ x y n, i = .opDXYN x y n := by
  cases i with
  | op00E0 | opDXYN => simp
  | _ => simp [Instr.writes, registersUpTo, State.bytesAtI] at h

theorem writer_V {r : Reg} (h : .V r ∈ Instr.writes s i) :
    (∃ y nn, i ∈ [.op6XNN r nn, .op7XNN r nn, .op8XY0 r y, .op8XY1 r y, .op8XY2 r y, .op8XY3 r y,
      .op8XY4 r y, .op8XY5 r y, .op8XY6 r y, .op8XY7 r y, .op8XYE r y, .opCXNN r nn, .opFX07 r, .opFX0A r]) ∨
    (∃ x, r ≤ x ∧ i = .opFX65 x) ∨
    (r = 15 ∧ ∃ x y n, i ∈ [.op8XY4 x y, .op8XY5 x y, .op8XY6 x y, .op8XY7 x y, .op8XYE x y, .opDXYN x y n]) := by
  cases i with
  | op6XNN | op7XNN | op8XY0 | op8XY1 | op8XY2 | op8XY3 | opCXNN | opFX07 | opFX0A =>
    obtain rfl : r = _ := by simpa [Instr.writes] using h
    simp
  | op8XY4 | op8XY5 | op8XY6 | op8XY7 | op8XYE =>
    obtain rfl | rfl : r = _ ∨ r = 15 := by simpa [Instr.writes] using h
    · simp
    · simp
  | opDXYN =>
    obtain rfl : r = 15 := by simpa [Instr.writes, everyCell] using h
    simp
  | opFX65 x =>
    simp only [Instr.writes, List.mem_append, mem_registersUpTo] at h
    simpa using h
  | _ => simp [Instr.writes, everyCell, State.bytesAtI] at h

end

end Sys2Proof.Machine
end

section
/-! PROOFS. The statements about the Step: outcomes, fatal errors, pc, mode, timers, parked states, and who writes what. -/

namespace Sys2Proof.Machine

section

variable {s t : State} {i : Instr}

/-! ## The redraw signal (R42) -/

/-- An instruction that completes and draws sets the redraw signal; otherwise it leaves it alone. -/
theorem exec_drawFlag (ex : exec i s = .next t) :
    (t.drawFlag = true ∧ t.mode = .running ∧ (i = .op00E0 ∨ ∃ x y n, i = .opDXYN x y n)) ∨
    (t.drawFlag = s.drawFlag ∧ ¬ (t.mode = .running ∧ (i = .op00E0 ∨ ∃ x y n, i = .opDXYN x y n))) := by
  by_cases hw : .drawFlag ∈ Instr.writes s i
  · obtain rfl | ⟨x, y, n, rfl⟩ := writer_drawFlag hw
    · cases ex
      exact .inl ⟨rfl, rfl, .inl rfl⟩
    · simp only [exec, execDXYN] at ex
      split at ex <;> cases ex
      · exact .inl ⟨rfl, rfl, .inr ⟨x, y, n, rfl⟩⟩
      · exact .inr ⟨rfl, by simp⟩
  · refine .inr ⟨exec_changesOnly ex .drawFlag hw, ?_⟩
    rintro ⟨_, rfl | ⟨x, y, n, rfl⟩⟩
    · exact hw (by simp [Instr.writes])
    · exact hw (by simp [Instr.writes])

theorem exec_drawFlag_kept (ex : exec i s = .next t) (h : s.drawFlag = true) : t.drawFlag = true := by
  obtain ⟨hset, _⟩ | ⟨hkept, _⟩ := exec_drawFlag ex
  · exact hset
  · exact hkept.trans h

theorem step_drawFlag_kept (hstep : step s = .next t) (h : s.drawFlag = true) : t.drawFlag = true := by
  obtain ⟨u, hend, hbody⟩ := step_body hstep
  rw [show t.drawFlag = u.drawFlag from end_changesOnly hend .drawFlag (by simp)]
  obtain ⟨hidle, _⟩ | ⟨i, _, ex⟩ := hbody
  · exact (hidle .drawFlag (by simp)).trans h
  · exact exec_drawFlag_kept ex h

theorem step_drawFlag_writer (h : step s = .next t) (hne : t.drawFlag ≠ s.drawFlag) :
    t.drawFlag = true ∧ (s.nextInstr = some .op00E0 ∨ ∃ x y n, s.nextInstr = some (.opDXYN x y n)) := by
  constructor
  · cases hs : s.drawFlag with
    | true => exact step_drawFlag_kept h hs
    | false => simpa [hs] using hne
  · obtain ⟨i, hn, hw⟩ := step_writer h (e := .drawFlag) (by simp) hne
    rw [hn]
    simpa using writer_drawFlag hw

theorem clearDrawFlagTx_changesOnly (s : State) : changesOnly s (clearDrawFlagTx s) [.drawFlag] := by
  intro e he
  cases e with
  | drawFlag => exact absurd (by simp) he
  | _ => exact rfl

/-! ## Mode (R156) -/

theorem exists_of_isHalted {m : Mode} (h : m.isHalted = true) : ∃ f, m = .halted f := by
  cases m with
  | halted f => exact ⟨f, rfl⟩
  | running | awaitingKey => cases h

theorem step_mode_of_halted {f : FatalRecord} (hm : s.mode = .halted f) (h : step s = .next t) :
    t.mode = .halted f ∧ t.out = some ⟨.halted f, false⟩ := by
  rw [step_halted hm] at h
  cases h
  exact ⟨hm, rfl⟩

/-- The three mode transitions of a Step of a live state, each with its status. -/
theorem step_mode (h : step s = .next t) (hs : s.mode.isHalted = false) :
    (t.mode = .running ∧ ∃ b, t.out = some ⟨.ok, b⟩ ∨ ∃ w, s.fetch = some w ∧ t.out = some ⟨.unknownOpcode w, b⟩) ∨
    (∃ x b, s.nextInstr = some (.opFX0A x) ∧ (∀ k : Fin 16, s.keys[k] = false) ∧ t.mode = .awaitingKey x ∧
      t.out = some ⟨.waiting, b⟩) ∨
    (∃ f, t.mode = .halted f ∧ t.out = some ⟨.fatal f, false⟩) := by
  cases step_cases h with
  | halted f mode => exact absurd mode ((isHalted_eq_false_iff _).mp hs f)
  | fetchFault => exact .inr (.inr ⟨_, rfl, rfl⟩)
  | unknown w live fetch dec => exact .inl ⟨rfl, _, .inr ⟨w, fetch, rfl⟩⟩
  | done w i u live fetch dec ex running => exact .inl ⟨running, _, .inl rfl⟩
  | wait w x live fetch dec none =>
    exact .inr (.inl ⟨x, _, nextInstr_of_known fetch dec, (pressedKeys_eq_nil_iff s).mp none, rfl, rfl⟩)
  | fatal => exact .inr (.inr ⟨_, rfl, rfl⟩)

/-- The mode that a Step changes goes where its status says. -/
theorem step_mode_writer (h : step s = .next t) (hne : t.mode ≠ s.mode) :
    (t.mode = .running ∧ ∃ b, t.out = some ⟨.ok, b⟩ ∨ ∃ w, s.fetch = some w ∧ t.out = some ⟨.unknownOpcode w, b⟩) ∨
    (∃ x b, s.nextInstr = some (.opFX0A x) ∧ t.mode = .awaitingKey x ∧ t.out = some ⟨.waiting, b⟩) ∨
    (∃ f, t.mode = .halted f ∧ t.out = some ⟨.fatal f, false⟩) := by
  cases hs : s.mode.isHalted with
  | false =>
    obtain hdone | ⟨x, b, hn, _, hmode, hout⟩ | hfatal := step_mode h hs
    · exact .inl hdone
    · exact .inr (.inl ⟨x, b, hn, hmode, hout⟩)
    · exact .inr (.inr hfatal)
  | true =>
    obtain ⟨f, hm⟩ := exists_of_isHalted hs
    obtain ⟨hkept, _⟩ := step_mode_of_halted hm h
    exact absurd (hkept.trans hm.symm) hne

/-! ## Parked states (R157) -/

/-- The Step of a parked state jumps to the pc it is at, and the timers count down. -/
theorem step_parked (h : s.parked) : step s = .next ((s.doneAt s.pc).timerStep .ok) := by
  obtain ⟨hs, nnn, hn, hpc⟩ := h
  exact hpc ▸ step_of_exec_running hs hn rfl rfl

/-- That state is parked too: the same word is at the same pc. -/
theorem parked_after_jump (h : s.parked) : ((s.doneAt s.pc).timerStep .ok).parked := by
  obtain ⟨_, hjump⟩ := h
  exact ⟨rfl, hjump⟩

theorem jump_to_pc_changesOnly (s : State) :
    changesOnly s ((s.doneAt s.pc).timerStep .ok) [.DT, .ST, .mode, .out] := by
  intro e he
  cases e with
  | DT | ST | mode | out => exact absurd (by simp) he
  | _ => exact rfl

end

/-- Settles O8: the end of the Step by the mode that the execute phase left. -/
theorem stepRunsTheDecodedInstruction : Obligations.StepRunsTheDecodedInstruction := by
  unfold Obligations.StepRunsTheDecodedInstruction
  intro s t i hs hpc dec ex
  rw [step_of_exec hs (nextInstr_of_known (fetch_of_range hpc) dec) ex]
  refine ⟨fun h => ?_, fun x h => ?_, fun f h => ?_⟩
  · rw [finish_running h]
    rfl
  · rw [finish_awaiting h]
    rfl
  · rw [finish_halted h]
    rfl

/-- Settles O9: the range check decides, and a word is its high byte times 256 plus its low byte. -/
theorem fetchReadsBigEndianOrFails : Obligations.FetchReadsBigEndianOrFails := by
  unfold Obligations.FetchReadsBigEndianOrFails
  refine ⟨fun s h => ⟨fetch_past_end h, fun hs => step_fetchFault hs (fetch_past_end h)⟩, fun s h => ?_⟩
  exact ⟨_, fetch_of_range h, wordOfBytes_toNat _ _⟩

/-- Settles O11: the Step in Halted writes the output and nothing else. -/
theorem haltedStepChangesNothing : Obligations.HaltedStepChangesNothing := by
  unfold Obligations.HaltedStepChangesNothing
  exact fun s f h => ⟨_, step_halted h, rfl, rfl, noTimerStep_changesOnly s _⟩

/-- Settles O12: only a failed fetch and a fatal instruction return Fatal, and both raise it on the state as it was; the
instruction's word is the fetched one. -/
theorem fatalStepIsPrecise : Obligations.FatalStepIsPrecise := by
  unfold Obligations.FatalStepIsPrecise
  intro s t f b hstep hout
  have hframe (reason : FatalReason) (w : Option Word) (status : Status) :
      changesOnly s ((s.raiseFatal reason w).noTimerStep status) [.mode, .out] :=
    (raiseFatal_changesOnly s reason w).trans (noTimerStep_changesOnly _ status)
  cases step_cases hstep with
  | fetchFault live fetch =>
    cases hout
    exact ⟨rfl, rfl, fetch.symm, rfl, rfl, hframe _ _ _⟩
  | fatal w i reason live fetch dec ex =>
    cases hout
    refine ⟨rfl, rfl, ?_, rfl, rfl, hframe _ _ _⟩
    rw [fetch, encodeWord_of_decodeWord dec]
  | _ => cases hout

/-- Settles O13: a Step is fatal by the fetch or by a cause of its instruction, and the causes are listed by reason. -/
theorem fatalReasonsMatchTheirCauses : Obligations.FatalReasonsMatchTheirCauses := by
  unfold Obligations.FatalReasonsMatchTheirCauses
  intro s r hs
  rw [step_fatal_iff hs]
  cases r with
  | stackOverflow =>
    constructor
    · rintro (⟨_, ⟨⟩⟩ | ⟨i, hn, hc⟩)
      cases hc with
      | callFull nnn full => exact ⟨⟨nnn, hn⟩, full⟩
    · rintro ⟨⟨nnn, hn⟩, full⟩
      exact .inr ⟨_, hn, .callFull nnn full⟩
  | stackUnderflow =>
    constructor
    · rintro (⟨_, ⟨⟩⟩ | ⟨i, hn, hc⟩)
      cases hc with
      | returnEmpty empty => exact ⟨hn, empty⟩
    · rintro ⟨hn, empty⟩
      exact .inr ⟨_, hn, .returnEmpty empty⟩
  | addressOutOfRange =>
    constructor
    · rintro (⟨hf, _⟩ | ⟨i, hn, hc⟩)
      · exact .inl hf
      · refine .inr ?_
        cases hc with
        | draw x y n past =>
          rw [dataInRange_eq_false_iff] at past
          exact .inl ⟨x, y, n, hn, by omega, by omega⟩
        | digits x past =>
          rw [dataInRange_eq_false_iff] at past
          exact .inr (.inl ⟨x, hn, by omega⟩)
        | store x past =>
          rw [dataInRange_eq_false_iff] at past
          exact .inr (.inr ⟨x, .inl hn, by omega⟩)
        | load x past =>
          rw [dataInRange_eq_false_iff] at past
          exact .inr (.inr ⟨x, .inr hn, by omega⟩)
    · rintro (hf | ⟨x, y, n, hn, hpos, past⟩ | ⟨x, hn, past⟩ | ⟨x, hn | hn, past⟩)
      · exact .inl ⟨hf, rfl⟩
      · exact .inr ⟨_, hn, .draw x y n ((dataInRange_eq_false_iff s _).mpr (by omega))⟩
      · exact .inr ⟨_, hn, .digits x ((dataInRange_eq_false_iff s _).mpr (by omega))⟩
      · exact .inr ⟨_, hn, .store x ((dataInRange_eq_false_iff s _).mpr (by omega))⟩
      · exact .inr ⟨_, hn, .load x ((dataInRange_eq_false_iff s _).mpr (by omega))⟩
  | keyIndexOutOfRange =>
    constructor
    · rintro (⟨_, ⟨⟩⟩ | ⟨i, hn, hc⟩)
      cases hc with
      | skipPressed x noKey => exact ⟨x, .inl hn, (keyOf_eq_none_iff s x).mp noKey⟩
      | skipReleased x noKey => exact ⟨x, .inr hn, (keyOf_eq_none_iff s x).mp noKey⟩
    · rintro ⟨x, hn | hn, index⟩
      · exact .inr ⟨_, hn, .skipPressed x ((keyOf_eq_none_iff s x).mpr index)⟩
      · exact .inr ⟨_, hn, .skipReleased x ((keyOf_eq_none_iff s x).mpr index)⟩

/-- Settles O15: pc follows the completed instruction, goes on by two past an unknown word, and stays otherwise. -/
theorem newPcIsNextSkipOrTarget : Obligations.NewPcIsNextSkipOrTarget := by
  unfold Obligations.NewPcIsNextSkipOrTarget
  intro s t hstep
  cases step_cases hstep with
  | halted f => exact .inr (.inr (.inr (.inr (.inr ⟨rfl, .inr (.inr ⟨f, false, rfl⟩)⟩))))
  | fetchFault => exact .inr (.inr (.inr (.inr (.inr ⟨rfl, .inr (.inl ⟨_, false, rfl⟩)⟩))))
  | unknown => exact .inl rfl
  | wait w x live fetch dec none =>
    exact .inr (.inr (.inr (.inr (.inr ⟨rfl, .inl ⟨x, _, nextInstr_of_known fetch dec, rfl⟩⟩))))
  | fatal => exact .inr (.inr (.inr (.inr (.inr ⟨rfl, .inr (.inl ⟨_, false, rfl⟩)⟩))))
  | done w i u live fetch dec ex running =>
    have hn : s.nextInstr = some i := nextInstr_of_known fetch dec
    have hpc := exec_nextPc ex running
    rw [timerStep_pc]
    generalize u.pc = target at hpc
    cases hpc with
    | next => exact .inl rfl
    | skip _ x y nn isSkip => exact .inr (.inl ⟨rfl, x, y, nn, hn ▸ List.mem_map_of_mem (f := some) isSkip⟩)
    | jump nnn => exact .inr (.inr (.inl ⟨nnn, .inl hn, zextAddr_toNat nnn⟩))
    | call nnn => exact .inr (.inr (.inl ⟨nnn, .inr hn, zextAddr_toNat nnn⟩))
    | computed nnn => exact .inr (.inr (.inr (.inl ⟨nnn, hn, zextByte_add_zextAddr_toNat _ nnn⟩)))
    | back hsp => exact .inr (.inr (.inr (.inr (.inl ⟨⟨s.sp.val - 1, by omega⟩, hn, Nat.sub_add_cancel hsp, rfl⟩))))

/-- Settles O17: the timer step counts down, and beeps by, what the instruction left in ST, which only FX18 writes. -/
theorem soundTimerBeepsOnTheStepFromOneToZero : Obligations.SoundTimerBeepsOnTheStepFromOneToZero := by
  unfold Obligations.SoundTimerBeepsOnTheStepFromOneToZero
  refine fun s t h => ⟨fun hs ht => ?_, step_halted_timers h⟩
  obtain ⟨i, u, status, hn, ex, rfl⟩ | ⟨hn, status, rfl⟩ := step_takes_timerStep h hs ht
  · simp only [hn, ne_eq, Option.some.injEq, timerStep_ST, timerStep_beeped, countDown_toNat]
    refine ⟨?_, fun hi => by simp [exec_ST hi ex]⟩
    rintro x rfl
    cases ex
    exact ⟨rfl, Iff.rfl⟩
  · exact ⟨by simp [hn], fun _ => ⟨countDown_toNat s.ST, timerStep_beeped status⟩⟩

/-- Settles O18: the transitions of a live Step, the Step in Halted, and each transaction read off its definition. -/
theorem modeTransitionsAreTheListed : Obligations.ModeTransitionsAreTheListed := by
  unfold Obligations.ModeTransitionsAreTheListed
  refine ⟨fun s t f hstep h => step_mode_of_halted h hstep, fun s t => step_mode, fun s => rfl, fun s bytes => ?_,
    setKeysTx_mode, fun s => rfl⟩
  unfold loadTx
  split
  · rfl
  · exact memWriteList_mode s _ _

/-- Settles O19: a Step of a live state does not read mode. -/
theorem awaitingKeyStepsAsRunning : Obligations.AwaitingKeyStepsAsRunning := by
  unfold Obligations.AwaitingKeyStepsAsRunning
  intro s x h
  calc step s
      _ = runStep s := by simp only [step, cycle, h]
      _ = runStep (s.withModeOut .running s.out) := (runStep_withModeOut s .running s.out).symm

/-- Settles O60: a Step in Halted overwrites the output, and one of a live state does not read it. -/
theorem outputsDoNotInfluenceSteps : Obligations.OutputsDoNotInfluenceSteps := by
  unfold Obligations.OutputsDoNotInfluenceSteps
  intro s o
  have hrun : runStep { s with out := o } = runStep s := runStep_withModeOut s s.mode o
  simp only [step, cycle, hrun]
  split <;> rfl

/-- Settles O20: by induction on the number of Steps, each of which is the jump to itself. -/
theorem parkedStateOnlyCountsTimersDown : Obligations.ParkedStateOnlyCountsTimersDown := by
  unfold Obligations.ParkedStateOnlyCountsTimersDown
  intro k
  induction k with
  | zero => exact fun s h => ⟨s, rfl, h, rfl, changesOnly_refl s _, rfl, rfl⟩
  | succ k ih =>
    intro s h
    obtain ⟨u, hrun, hparked, hmem, hframe, hDT, hST⟩ := ih _ (parked_after_jump h)
    refine ⟨u, (run_succ k (step_parked h)).trans hrun, hparked, hmem,
      ((jump_to_pc_changesOnly s).trans hframe).mono (by simp), ?_, ?_⟩
    · rw [hDT, timerStep_DT, countDown_toNat, doneAt_DT]
      omega
    · rw [hST, timerStep_ST, countDown_toNat, doneAt_ST]
      omega

/-- Settles O21: by induction on the number of Steps, each of which counts both timers down by one. -/
theorem timersReachZeroAndBeepOnce : Obligations.TimersReachZeroAndBeepOnce := by
  unfold Obligations.TimersReachZeroAndBeepOnce
  intro k
  induction k with
  | zero =>
    refine fun s _ _ => ⟨s, rfl, rfl, rfl, ?_⟩
    rw [if_neg (by omega)]
    rfl
  | succ k ih =>
    rintro s hs ⟨hfree, t, hstep, ht, hrest⟩
    obtain ⟨u, hrun, hDT, hST, hbeeps⟩ := ih t ht hrest
    obtain ⟨_, hDTt, _⟩ := delayTimerCountsDownOncePerStep s t hstep hs ht
    obtain ⟨hlive, _⟩ := soundTimerBeepsOnTheStepFromOneToZero s t hstep
    obtain ⟨_, hSTt⟩ := hlive hs ht
    replace hDTt := hDTt fun x => (hfree x).1
    obtain ⟨hSTt, hbeep⟩ := hSTt fun x => (hfree x).2
    rw [← BitVec.toNat_inj, show (1 : Byte).toNat = 1 from rfl] at hbeep
    refine ⟨u, (run_succ k hstep).trans hrun, by omega, by omega, ?_⟩
    simp only [beepsIn, hstep, hbeeps, hbeep]
    split_ifs <;> omega

/-- Settles O58: what the instruction writes is listed by `Instr.writes`; the timers, mode and the memory list are their own
lemmas. -/
theorem onlyTheListedInstructionsWrite : Obligations.OnlyTheListedInstructionsWrite := by
  unfold Obligations.OnlyTheListedInstructionsWrite
  intro s t h
  refine ⟨step_mem_writer h, fun hne => ?_, fun hne => ?_, fun hne => ?_, fun hne => ?_, step_drawFlag_writer h,
    fun r hne => ?_, step_DT_writer h, step_ST_writer h, step_mode_writer h, step_keys h, step_glyphs h⟩
  · obtain ⟨i, hn, hw⟩ := step_writer h (e := .I) (by simp) hne
    simpa [hn] using writer_I hw
  · obtain ⟨j, hj⟩ : ∃ j : Fin 16, t.stack[j] ≠ s.stack[j] := by
      by_contra hall
      exact hne (Vector.ext fun j hj => by simpa using not_exists.mp hall ⟨j, hj⟩)
    obtain ⟨i, hn, hw⟩ := step_writer h (e := .stack j) (by simp) hj
    simpa [hn] using writer_stack hw
  · obtain ⟨i, hn, hw⟩ := step_writer h (e := .sp) (by simp) hne
    simpa [hn] using writer_sp hw
  · obtain ⟨k, hk⟩ : ∃ k, t.gfx.cell k ≠ s.gfx.cell k := by
      by_contra hall
      exact hne (frame_ext fun k => by simpa using not_exists.mp hall k)
    obtain ⟨i, hn, hw⟩ := step_writer h (e := .gfx k) (by simp) hk
    simpa [hn] using writer_gfx hw
  · obtain ⟨i, hn, hw⟩ := step_writer h (e := .V r) (by simp) hne
    simpa [hn] using writer_V hw

/-- Settles O42: an instruction sets the signal exactly when it completes and draws, and the host's two ways to clear it are read
off their definitions. -/
theorem redrawSignalIsSetByDrawingAndClearedByTheHost : Obligations.RedrawSignalIsSetByDrawingAndClearedByTheHost := by
  unfold Obligations.RedrawSignalIsSetByDrawingAndClearedByTheHost
  refine ⟨fun s t i => exec_drawFlag_kept, fun s t i ex hs => ?_, fun s => ⟨rfl, clearDrawFlagTx_changesOnly s⟩,
    fun s => rfl⟩
  obtain ⟨hset, hdraws⟩ | ⟨hkept, hnot⟩ := exec_drawFlag ex
  · exact iff_of_true hset hdraws
  · exact iff_of_false (by simp [hkept, hs]) hnot

end Sys2Proof.Machine
end

section
/-! PROOFS. The instructions of flow, ALU, index and memory, keys and timers (41_flow.md, 42_alu.md, 43_index_memory.md,
45_keys_timers.md): what each writes, with its frame from `exec_changesOnly` and its encoding from its row of the opcode map. -/

namespace Sys2Proof.Machine

section

variable {s t : State} {i : Instr} {x y : Reg}

/-! ## Encodings and shapes -/

/-- The words of an instruction's row are those that decode to the row's form. -/
theorem encodedBy_row {form : Instr → Prop} (j : Instr) (hform : ∀ i : Instr, i.row = j.row ↔ form i) :
    encodedBy j.row.value j.row.mask form :=
  encodedBy_of_row j.row (row_mem_opcodeTable j) hform

theorem goesTo_of_doneAt {target : Word} (ex : exec i s = .next (s.doneAt target)) : goesTo i s target :=
  ⟨_, ex, rfl, rfl, doneAt_changesOnly s target⟩

theorem goesTo_of_doneSkipIf {skip : Bool} {p : Prop} [Decidable p] (hp : skip = true ↔ p)
    (ex : exec i s = .next (s.doneSkipIf skip)) : goesTo i s (if p then s.pc + 4 else s.pc + 2) := by
  simp only [← hp]
  exact goesTo_of_doneAt ex

theorem writesV_of_done {value : Byte} (ex : exec i s = .next (s.writeV x value).done) : writesV i s x value :=
  ⟨_, ex, writeV_readV_self s x value, rfl, rfl, (writeV_changesOnly s x value).trans (doneAt_changesOnly _ _)⟩

/-! ## Bytes as numbers -/

theorem flagByte_decide (c : Prop) [Decidable c] : flagByte (decide c) = bitByte c := by
  simp [flagByte, bitByte]

theorem bitByte_toNat_le (c : Prop) [Decidable c] : (bitByte c).toNat ≤ 1 := by
  unfold bitByte
  split <;> decide

theorem byte_add_toNat (a b : Byte) : (a + b).toNat = (a.toNat + b.toNat) % 256 := BitVec.toNat_add a b

theorem byte_sub_toNat (a b : Byte) : (a - b).toNat = (a.toNat + 256 - b.toNat) % 256 := by
  have := b.isLt
  rw [BitVec.toNat_sub]
  omega

theorem lowBitFlag_toNat (a : Byte) : (lowBitFlag a).toNat = a.toNat % 2 := by
  rw [lowBitFlag, BitVec.toNat_and]
  exact Nat.and_two_pow_sub_one_eq_mod a.toNat 1

theorem highBitFlag_toNat (a : Byte) : (highBitFlag a).toNat = a.toNat / 128 := by
  have := a.isLt
  have h : highBitFlag a = lowBitFlag (a >>> 7) := rfl
  rw [h, lowBitFlag_toNat, BitVec.toNat_ushiftRight, Nat.shiftRight_eq_div_pow]
  omega

theorem byte_shiftRight_one_toNat (a : Byte) : (a >>> 1).toNat = a.toNat / 2 := by
  rw [BitVec.toNat_ushiftRight, Nat.shiftRight_eq_div_pow]

theorem byte_shiftLeft_one_toNat (a : Byte) : (a <<< 1).toNat = a.toNat * 2 % 256 := by
  rw [BitVec.toNat_shiftLeft, Nat.shiftLeft_eq]

/-! ## The flag-writing form (R226) -/

/-- What VF and V[X] hold after a flag-writing instruction, by which of X and Y is F. -/
theorem flagThenResult_reads (s : State) (x y : Reg) (flag result : Byte → Byte → Byte) :
    let t := (s.flagThenResult x y flag result).done
    let v := flag (s.readV x) (s.readV y)
    (x ≠ 15 → t.readV 15 = v) ∧
    (x ≠ 15 → y ≠ 15 → t.readV x = result (s.readV x) (s.readV y)) ∧
    (x = 15 → y ≠ 15 → t.readV 15 = result v (s.readV y)) ∧
    (x ≠ 15 → y = 15 → t.readV x = result (s.readV x) v) ∧
    (x = 15 → y = 15 → t.readV 15 = result v v) := by
  simp only [done_readV, flagThenResult_readV_general]
  refine ⟨fun hx => ?_, fun hx hy => ?_, fun hx hy => ?_, fun hx hy => ?_, fun hx hy => ?_⟩
  · simp [Ne.symm hx]
  · simp [hx, hy]
  · simp [hx, hy]
  · simp [hx, hy]
  · simp [hx, hy]

/-! ## Keys -/

theorem mem_pressedKeys {k : Fin 16} : k ∈ s.pressedKeys ↔ s.keys[k] = true := by
  simp [State.pressedKeys]

/-- The key that FX0A reports is one of the pressed ones (R334). -/
theorem chooseKey_mem (n : Nat) (k : Fin 16) (rest : List (Fin 16)) : chooseKey n k rest ∈ k :: rest := by
  cases rest with
  | nil => exact List.mem_singleton_self k
  | cons => exact List.getElem_mem _

end

/-! ## Control flow -/

/-- Settles O22: with an entry in use the popped slot is the one below sp; with none the pop has its cause to be fatal. -/
theorem returnGoesPastTheCall : Obligations.ReturnGoesPastTheCall := by
  unfold Obligations.ReturnGoesPastTheCall
  refine ⟨fun s j hj => ?_, fun s h => fatalWith_of_fatalCause (.returnEmpty h),
    encodedBy_row .op00EE fun i => by cases i <;> simp [Instr.row]⟩
  have hsp : 0 < s.sp.val := by omega
  have htop : s.topOfStack hsp = s.stack[j] := by
    simp only [State.topOfStack, ← hj, Nat.add_sub_cancel]
    rfl
  refine ⟨_, exec_op00EE_of_used hsp, ?_, ?_, rfl, exec_changesOnly (exec_op00EE_of_used hsp)⟩
  · rw [doneAt_sp, dropTop_sp]
    simp only [← hj, Nat.add_sub_cancel]
  · rw [doneAt_pc, htop]

/-- Settles O23; the fetch at 0xFFF fails because the word's second byte lies past the end. -/
theorem jumpGoesToItsAddress : Obligations.JumpGoesToItsAddress := by
  unfold Obligations.JumpGoesToItsAddress
  refine ⟨fun s nnn => goesTo_of_doneAt rfl, fun s t ex => ?_,
    encodedBy_row (.op1NNN 0) fun i => by cases i <;> simp [Instr.row]⟩
  cases ex
  exact fetch_past_end (show 0xFFF < (zextAddr 0xFFF).toNat + 1 by decide)

/-- Settles O24: the push writes the slot at sp; with no slot free the call has its cause to be fatal. -/
theorem callPushesItsOwnAddress : Obligations.CallPushesItsOwnAddress := by
  unfold Obligations.CallPushesItsOwnAddress
  refine ⟨fun s nnn j hj => ?_, fun s nnn h => fatalWith_of_fatalCause (.callFull nnn h),
    encodedBy_row (.op2NNN 0) fun i => by cases i <;> simp [Instr.row]⟩
  have hsp : s.sp.val < 16 := hj ▸ j.isLt
  exact ⟨_, exec_op2NNN_of_free hsp, (pushPc_slot s hsp j).trans (if_pos hj), congrArg (· + 1) hj.symm, rfl, rfl,
    (pushPc_changesOnly s hsp hj).trans (doneAt_changesOnly _ _)⟩

/-- Settles O25: each skip is the same move of pc under its own test. -/
theorem skipsAdvanceByFourOrTwo : Obligations.SkipsAdvanceByFourOrTwo := by
  unfold Obligations.SkipsAdvanceByFourOrTwo
  refine ⟨fun s x y nn => ⟨goesTo_of_doneSkipIf beq_iff_eq rfl, goesTo_of_doneSkipIf bne_iff_ne rfl,
    goesTo_of_doneSkipIf beq_iff_eq rfl, goesTo_of_doneSkipIf bne_iff_ne rfl⟩, ?_, ?_, ?_, ?_⟩
  · exact encodedBy_row (.op3XNN 0 0) fun i => by cases i <;> simp [Instr.row]
  · exact encodedBy_row (.op4XNN 0 0) fun i => by cases i <;> simp [Instr.row]
  · exact encodedBy_row (.op5XY0 0 0) fun i => by cases i <;> simp [Instr.row]
  · exact encodedBy_row (.op9XY0 0 0) fun i => by cases i <;> simp [Instr.row]

/-- Settles O26: V0 + NNN fits 16 bits. -/
theorem computedJumpAddsV0Exactly : Obligations.ComputedJumpAddsV0Exactly := by
  unfold Obligations.ComputedJumpAddsV0Exactly
  exact ⟨fun s nnn => ⟨_, rfl, zextByte_add_zextAddr_toNat _ nnn, rfl, doneAt_changesOnly s _⟩,
    encodedBy_row (.opBNNN 0) fun i => by cases i <;> simp [Instr.row]⟩

/-! ## The ALU -/

/-- Settles O28: both write V[X]; the byte sum is the sum modulo 256. -/
theorem byteLoadAndByteAdd : Obligations.ByteLoadAndByteAdd := by
  unfold Obligations.ByteLoadAndByteAdd
  refine ⟨fun s x nn => ⟨writesV_of_done rfl, ?_⟩,
    encodedBy_row (.op6XNN 0 0) fun i => by cases i <;> simp [Instr.row],
    encodedBy_row (.op7XNN 0 0) fun i => by cases i <;> simp [Instr.row]⟩
  rw [← byte_add_toNat, BitVec.ofNat_toNat, BitVec.setWidth_eq]
  exact writesV_of_done rfl

/-- Settles O29: all four write V[X] only. -/
theorem registerMoveAndLogic : Obligations.RegisterMoveAndLogic := by
  unfold Obligations.RegisterMoveAndLogic
  refine ⟨fun s x y => ⟨writesV_of_done rfl, writesV_of_done rfl, writesV_of_done rfl, writesV_of_done rfl⟩, ?_, ?_, ?_, ?_⟩
  · exact encodedBy_row (.op8XY0 0 0) fun i => by cases i <;> simp [Instr.row]
  · exact encodedBy_row (.op8XY1 0 0) fun i => by cases i <;> simp [Instr.row]
  · exact encodedBy_row (.op8XY2 0 0) fun i => by cases i <;> simp [Instr.row]
  · exact encodedBy_row (.op8XY3 0 0) fun i => by cases i <;> simp [Instr.row]

/-- Settles O30: the flag-writing form with the carry and the sum. -/
theorem addWritesCarryThenSum : Obligations.AddWritesCarryThenSum := by
  unfold Obligations.AddWritesCarryThenSum
  intro s x y
  obtain ⟨hflag, hplain, hxF, hyF, hxyF⟩ := flagThenResult_reads s x y carryFlag fun a b => a + b
  refine ⟨_, rfl, rfl, rfl, exec_changesOnly (i := .op8XY4 x y) rfl, ?_⟩
  intro c
  have hc : carryFlag (s.readV x) (s.readV y) = c := flagByte_decide _
  have hle : c.toNat ≤ 1 := bitByte_toNat_le _
  rw [hc] at hflag hxF hyF hxyF
  refine ⟨hflag, fun hx hy => ?_, fun hx hy => ?_, fun hx hy => ?_, fun hx hy => ?_⟩
  · rw [hplain hx hy, byte_add_toNat]
  · rw [hxF hx hy, byte_add_toNat]
  · rw [hyF hx hy, byte_add_toNat]
  · rw [hxyF hx hy, byte_add_toNat]
    omega

/-- Settles O31: the flag-writing form with the strict test and the difference. -/
theorem subtractWritesStrictFlagThenDifference : Obligations.SubtractWritesStrictFlagThenDifference := by
  unfold Obligations.SubtractWritesStrictFlagThenDifference
  intro s x y
  obtain ⟨hflag, hplain, hxF, hyF, hxyF⟩ := flagThenResult_reads s x y greaterFlag fun a b => a - b
  refine ⟨_, rfl, rfl, rfl, exec_changesOnly (i := .op8XY5 x y) rfl, ?_⟩
  intro f
  have hf : greaterFlag (s.readV x) (s.readV y) = f := flagByte_decide _
  rw [hf] at hflag hxF hyF hxyF
  refine ⟨hflag, fun hx hy => ?_, fun hx hy => ?_, fun hx hy => ?_, fun hx hy => ?_⟩
  · rw [hplain hx hy, byte_sub_toNat]
  · rw [hxF hx hy, byte_sub_toNat]
  · rw [hyF hx hy, byte_sub_toNat]
  · exact (hxyF hx hy).trans (BitVec.sub_self f)

/-- Settles O32: as 8XY5 with the operands exchanged. -/
theorem reverseSubtractWritesStrictFlagThenDifference : Obligations.ReverseSubtractWritesStrictFlagThenDifference := by
  unfold Obligations.ReverseSubtractWritesStrictFlagThenDifference
  intro s x y
  obtain ⟨hflag, hplain, hxF, hyF, hxyF⟩ :=
    flagThenResult_reads s x y (fun a b => greaterFlag b a) fun a b => b - a
  refine ⟨_, rfl, rfl, rfl, exec_changesOnly (i := .op8XY7 x y) rfl, ?_⟩
  intro f
  have hf : greaterFlag (s.readV y) (s.readV x) = f := flagByte_decide _
  rw [hf] at hflag hxF hyF hxyF
  refine ⟨hflag, fun hx hy => ?_, fun hx hy => ?_, fun hx hy => ?_, fun hx hy => ?_⟩
  · rw [hplain hx hy, byte_sub_toNat]
  · rw [hxF hx hy, byte_sub_toNat]
  · rw [hyF hx hy, byte_sub_toNat]
  · exact (hxyF hx hy).trans (BitVec.sub_self f)

/-- Settles O33: the flag-writing form with X as both operands; at X = F the shift reads the flag just written. -/
theorem shiftsWriteTheBitShiftedOut : Obligations.ShiftsWriteTheBitShiftedOut := by
  unfold Obligations.ShiftsWriteTheBitShiftedOut
  intro s x y
  constructor
  · obtain ⟨hflag, hplain, _, _, hF⟩ :=
      flagThenResult_reads s x x (fun a _ => lowBitFlag a) fun a _ => a >>> 1
    refine ⟨_, rfl, rfl, rfl, exec_changesOnly (i := .op8XY6 x y) rfl, fun hx => ⟨?_, ?_⟩, fun hx => ?_⟩
    · rw [hflag hx, lowBitFlag_toNat]
    · rw [hplain hx hx, byte_shiftRight_one_toNat]
    · rw [hF hx hx, ← BitVec.toNat_inj, byte_shiftRight_one_toNat, lowBitFlag_toNat]
      exact Nat.div_eq_of_lt (Nat.mod_lt _ (by decide))
  · obtain ⟨hflag, hplain, _, _, hF⟩ :=
      flagThenResult_reads s x x (fun a _ => highBitFlag a) fun a _ => a <<< 1
    refine ⟨_, rfl, rfl, rfl, exec_changesOnly (i := .op8XYE x y) rfl, fun hx => ⟨?_, ?_⟩, fun hx => ?_⟩
    · rw [hflag hx, highBitFlag_toNat]
    · rw [hplain hx hx, byte_shiftLeft_one_toNat]
    · have := (s.readV x).isLt
      rw [hF hx hx, byte_shiftLeft_one_toNat, highBitFlag_toNat, ← hx]
      omega

/-- Settles O34: the draw is masked bit by bit. -/
theorem randomByteIsMasked : Obligations.RandomByteIsMasked := by
  unfold Obligations.RandomByteIsMasked
  intro s x nn
  have hread : (s.countDraw.writeV x (s.nextRandom &&& nn)).done.readV x = Config.randomByte s.draws &&& nn :=
    writeV_readV_self _ x _
  refine ⟨_, rfl, hread, ?_, rfl, rfl, rfl, exec_changesOnly (i := .opCXNN x nn) rfl⟩
  rw [hread, BitVec.and_assoc, BitVec.and_not_self]
  exact BitVec.and_zero

/-! ## Index register and memory -/

/-- Settles O35: NNN and five times a byte fit 16 bits. -/
theorem indexLoadsAddressOrGlyph : Obligations.IndexLoadsAddressOrGlyph := by
  unfold Obligations.IndexLoadsAddressOrGlyph
  refine ⟨fun s nnn => ⟨_, rfl, zextAddr_toNat nnn, rfl, rfl, exec_changesOnly (i := .opANNN nnn) rfl⟩,
    fun s x => ⟨_, rfl, zextByte_mul_five_toNat _, rfl, rfl, exec_changesOnly (i := .opFX29 x) rfl⟩, ?_, ?_⟩
  · exact encodedBy_row (.opANNN 0) fun i => by cases i <;> simp [Instr.row]
  · exact encodedBy_row (.opFX29 0) fun i => by cases i <;> simp [Instr.row]

/-- Settles O36: the sum modulo 0x1000 fits the 16 bits of I. -/
theorem indexAddWrapsInTheAddressRange : Obligations.IndexAddWrapsInTheAddressRange := by
  unfold Obligations.IndexAddWrapsInTheAddressRange
  refine fun s x => ⟨_, rfl, ?_, rfl, rfl, exec_changesOnly (i := .opFX1E x) rfl⟩
  rw [done_I, writeI_I, BitVec.toNat_ofNat]
  omega

/-- Settles O37: the three digits are bytes, stored one after the other. -/
theorem decimalDigitsAreStored : Obligations.DecimalDigitsAreStored := by
  unfold Obligations.DecimalDigitsAreStored
  refine fun s x => ⟨fun h => ?_, fun h => fatalWith_of_fatalCause (.digits x ((dataInRange_eq_false_iff s 3).mpr (by omega)))⟩
  have hr : s.dataInRange 3 = true := (dataInRange_iff s 3).mpr (by omega)
  have := (s.readV x).isLt
  have hread (k : Nat) (hk : k < (decimalDigits (s.readV x)).length) :
      (s.memWriteList (s.dataAddr 0) (decimalDigits (s.readV x))).done.memRead (s.dataAddr k) =
        (decimalDigits (s.readV x))[k] :=
    memWriteList_memRead_at s (s.dataAddr 0) _ k hk
  refine ⟨_, exec_opFX33_of_range hr, ?_, ?_, ?_, by simp, rfl, exec_changesOnly (exec_opFX33_of_range hr)⟩
  · rw [hread 0 (by simp [decimalDigits])]
    simp [decimalDigits]
    omega
  · rw [hread 1 (by simp [decimalDigits])]
    simp [decimalDigits]
    omega
  · rw [hread 2 (by simp [decimalDigits])]
    simp [decimalDigits]
    omega

/-- The byte at I + r after FX55 has stored V0..VX is V[r]. -/
theorem stored_memRead (s : State) {x r : Reg} (h : r ≤ x) :
    (s.memWriteList (s.dataAddr 0) (s.registersTo x)).memRead (s.dataAddr r.val) = s.readV r := by
  have hlen : r.val < (s.registersTo x).length := by
    rw [registersTo_length]
    exact Nat.lt_succ_of_le h
  exact (memWriteList_memRead_at s (s.dataAddr 0) _ r.val hlen).trans (registersTo_get s x r.val hlen)

/-- Settles O38: the store's k-th byte is the k-th register. -/
theorem registersAreStored : Obligations.RegistersAreStored := by
  unfold Obligations.RegistersAreStored
  refine fun s x => ⟨fun h => ?_, fun h => fatalWith_of_fatalCause (.store x ((dataInRange_eq_false_iff s _).mpr (by omega)))⟩
  have hr : s.dataInRange (x.val + 1) = true := (dataInRange_iff s _).mpr (by omega)
  exact ⟨_, exec_opFX55_of_range hr, fun r => stored_memRead s, by simp, rfl, exec_changesOnly (exec_opFX55_of_range hr)⟩

/-- Settles O39: the load writes the registers up to X from memory as it was. -/
theorem registersAreLoaded : Obligations.RegistersAreLoaded := by
  unfold Obligations.RegistersAreLoaded
  refine fun s x => ⟨fun h => ?_, fun h => fatalWith_of_fatalCause (.load x ((dataInRange_eq_false_iff s _).mpr (by omega)))⟩
  have hr : s.dataInRange (x.val + 1) = true := (dataInRange_iff s _).mpr (by omega)
  refine ⟨_, exec_opFX65_of_range hr, fun r hrx => ?_, ?_, rfl, exec_changesOnly (exec_opFX65_of_range hr)⟩
  · exact (loadRegisters_readV s _ (by omega) r).trans (if_pos (Nat.lt_succ_of_le hrx))
  · rw [done_pc, loadRegisters_V_only]

/-- Settles O40: pc is I after the store, and the first two bytes stored are V0 and V1. -/
theorem storedWordIsFetchedNext : Obligations.StoredWordIsFetchedNext := by
  unfold Obligations.StoredWordIsFetchedNext
  intro s x hs hn hx hI hrange
  have hr : s.dataInRange (x.val + 1) = true := (dataInRange_iff s _).mpr (by omega)
  refine ⟨_, step_of_exec_running hs hn (exec_opFX55_of_range hr) rfl, ?_⟩
  have hpc : (s.pc + 2).toNat = s.dataAddr 0 := by
    rw [BitVec.toNat_add, State.dataAddr, hI]
    simp
    omega
  have h0 := stored_memRead s (x := x) (r := 0) (Nat.zero_le _)
  have h1 := stored_memRead s (x := x) (r := 1) hx
  rw [fetch_of_range (by simp [State.dataAddr] at hpc ⊢; omega)]
  simp only [timerStep_pc, done_pc, memWriteList_pc, timerStep_memRead, done_memRead, hpc]
  exact congrArg some (congrArg₂ wordOfBytes h0 h1)

/-! ## Keys and timers -/

/-- Settles O46: by whether V[X] names a key. -/
theorem keySkipsTestTheNamedKey : Obligations.KeySkipsTestTheNamedKey := by
  unfold Obligations.KeySkipsTestTheNamedKey
  refine fun s x => ⟨fun k hk => ?_, fun h => ?_⟩
  · have hkey : s.keyOf x = some s.keys[k] := keyOf_of_val hk
    exact ⟨goesTo_of_doneSkipIf Iff.rfl (exec_opEX9E_of_key hkey), goesTo_of_doneSkipIf (by simp) (exec_opEXA1_of_key hkey)⟩
  · have hnone : s.keyOf x = none := (keyOf_eq_none_iff s x).mpr h
    exact ⟨fatalWith_of_fatalCause (.skipPressed x hnone), fatalWith_of_fatalCause (.skipReleased x hnone)⟩

/-- Settles O47: the read comes before the timer step. -/
theorem delayTimerIsReadBeforeItsDecrement : Obligations.DelayTimerIsReadBeforeItsDecrement := by
  unfold Obligations.DelayTimerIsReadBeforeItsDecrement
  exact ⟨fun s x => writesV_of_done rfl,
    fun s x hs hn => ⟨_, step_of_exec_running hs hn rfl rfl, writeV_readV_self s x s.DT, countDown_toNat s.DT⟩,
    encodedBy_row (.opFX07 0) fun i => by cases i <;> simp [Instr.row]⟩

/-- Settles O48: the timer step follows the write. -/
theorem delayTimerWriteIsCountedDownInItsStep : Obligations.DelayTimerWriteIsCountedDownInItsStep := by
  unfold Obligations.DelayTimerWriteIsCountedDownInItsStep
  exact ⟨fun s x => ⟨_, rfl, rfl, rfl, rfl, exec_changesOnly (i := .opFX15 x) rfl⟩,
    fun s x hs hn => ⟨_, step_of_exec_running hs hn rfl rfl, countDown_toNat (s.readV x)⟩,
    encodedBy_row (.opFX15 0) fun i => by cases i <;> simp [Instr.row]⟩

/-- Settles O49: the timer step, and its beep, follow the write. -/
theorem soundTimerWriteMayBeepInItsStep : Obligations.SoundTimerWriteMayBeepInItsStep := by
  unfold Obligations.SoundTimerWriteMayBeepInItsStep
  exact ⟨fun s x => ⟨_, rfl, rfl, rfl, rfl, exec_changesOnly (i := .opFX18 x) rfl⟩,
    fun s x hs hn => ⟨_, step_of_exec_running hs hn rfl rfl, countDown_toNat (s.readV x), timerStep_beeped _⟩,
    encodedBy_row (.opFX18 0) fun i => by cases i <;> simp [Instr.row]⟩

/-- Settles O50: by whether a key is pressed. -/
theorem waitForKeyReportsAPressedKey : Obligations.WaitForKeyReportsAPressedKey := by
  unfold Obligations.WaitForKeyReportsAPressedKey
  refine fun s x => ⟨fun ⟨k, hk⟩ => ?_, fun h => ?_⟩
  · obtain ⟨k₀, rest, hpressed⟩ := List.exists_cons_of_ne_nil (List.ne_nil_of_mem (mem_pressedKeys.mpr hk))
    have ex := exec_opFX0A_of_key (x := x) hpressed
    have hchosen : chooseKey s.nextChoice k₀ rest ∈ s.pressedKeys := hpressed ▸ chooseKey_mem s.nextChoice k₀ rest
    refine ⟨_, ex, ⟨_, mem_pressedKeys.mp hchosen, ?_⟩, rfl, rfl, rfl, exec_changesOnly ex⟩
    rw [done_readV, writeV_readV_self, BitVec.toNat_ofNat]
    omega
  · exact ⟨_, exec_FX0A_of_no_key ((pressedKeys_eq_nil_iff s).mpr h), rfl, wait_changesOnly s x⟩

end Sys2Proof.Machine
end

section
/-! PROOFS. The display (44_display.md rules R300-R307). A sprite is drawn by hitting its pixels' cells one after the other;
because no two of its pixels share a cell, the order does not matter and the result is the exclusive or with the cells covered. -/

namespace Sys2Proof.Machine

section

variable {x0 y0 b : Byte} {row col : Nat} {c : Canvas} {k q : Fin 2048}

/-! ## A sprite's pixels as a list of cells -/

/-- A 1 bit of the sprite meets its cell: the cell flips, and collides when it held 1 (R301, R304). -/
def hitCell (c : Canvas) (k : Fin 2048) : Canvas := (c.1.flip k, c.2 || c.1.cell k)

/-- The cells of one sprite byte's 1 bits, from the left. -/
def rowPixels (x0 y0 b : Byte) (row : Nat) : List (Fin 2048) :=
  ((List.range 8).filter (spriteBit b)).map (pixelIndex x0 y0 row)

/-- The cells of the 1 bits of sprite bytes from row `row` on, top row first. -/
def spritePixels (x0 y0 : Byte) (row : Nat) : List Byte → List (Fin 2048)
  | [] => []
  | b :: rest => rowPixels x0 y0 b row ++ spritePixels x0 y0 (row + 1) rest

theorem drawRow_eq_foldl_hitCell : drawRow x0 y0 b row c = (rowPixels x0 y0 b row).foldl hitCell c := by
  rw [rowPixels, List.foldl_map, List.foldl_filter]
  rfl

theorem drawRows_eq_foldl_hitCell (bs : List Byte) :
    drawRows x0 y0 row c bs = (spritePixels x0 y0 row bs).foldl hitCell c := by
  induction bs generalizing row c with
  | nil => rfl
  | cons b rest ih => rw [drawRows, ih, drawRow_eq_foldl_hitCell, spritePixels, List.foldl_append]

theorem mem_rowPixels :
    k ∈ rowPixels x0 y0 b row ↔ ∃ col < 8, spriteBit b col = true ∧ pixelIndex x0 y0 row col = k := by
  simp [rowPixels, and_assoc]

theorem mem_spritePixels {bs : List Byte} :
    k ∈ spritePixels x0 y0 row bs ↔ ∃ j b, bs[j]? = some b ∧ k ∈ rowPixels x0 y0 b (row + j) := by
  induction bs generalizing row with
  | nil => simp [spritePixels]
  | cons b rest ih =>
    rw [spritePixels, List.mem_append, ih]
    constructor
    · rintro (h | ⟨j, d, hd, h⟩)
      · exact ⟨0, b, rfl, h⟩
      · exact ⟨j + 1, d, hd, by rwa [Nat.add_right_comm] at h⟩
    · rintro ⟨_ | j, d, hd, h⟩
      · cases hd
        exact .inl h
      · exact .inr ⟨j, d, hd, by rwa [Nat.add_right_comm]⟩

/-! ## No two pixels share a cell (R303, R305) -/

theorem pixelIndex_inj {row' col' : Nat} (hr : row < 15) (hr' : row' < 15) (hc : col < 8) (hc' : col' < 8)
    (h : pixelIndex x0 y0 row col = pixelIndex x0 y0 row' col') : row = row' ∧ col = col' := by
  simp only [pixelIndex, Fin.mk.injEq] at h
  omega

theorem rowPixels_nodup (hr : row < 15) : (rowPixels x0 y0 b row).Nodup := by
  refine List.Nodup.map_on (fun col hcol col' hcol' h => ?_) (List.nodup_range.filter _)
  obtain ⟨hc, _⟩ := List.mem_filter.mp hcol
  obtain ⟨hc', _⟩ := List.mem_filter.mp hcol'
  exact (pixelIndex_inj hr hr (List.mem_range.mp hc) (List.mem_range.mp hc') h).2

theorem spritePixels_nodup {bs : List Byte} (h : row + bs.length ≤ 15) : (spritePixels x0 y0 row bs).Nodup := by
  induction bs generalizing row with
  | nil => exact List.nodup_nil
  | cons b rest ih =>
    simp only [List.length_cons] at h
    refine (rowPixels_nodup (by omega)).append (ih (by omega)) fun k hk hk' => ?_
    obtain ⟨col, hc, _, rfl⟩ := mem_rowPixels.mp hk
    obtain ⟨j, d, hd, hj⟩ := mem_spritePixels.mp hk'
    obtain ⟨col', hc', _, heq⟩ := mem_rowPixels.mp hj
    obtain ⟨hlt, _⟩ := List.getElem?_eq_some_iff.mp hd
    have hrow := pixelIndex_inj (by omega) (by omega) hc' hc heq
    omega

/-! ## Hitting cells that are all different -/

theorem foldl_hitCell_cell {ps : List (Fin 2048)} (h : ps.Nodup) :
    (ps.foldl hitCell c).1.cell q = xor (c.1.cell q) (decide (q ∈ ps)) := by
  induction ps generalizing c with
  | nil => simp
  | cons k rest ih =>
    obtain ⟨hk, hrest⟩ := List.nodup_cons.mp h
    rw [List.foldl_cons, ih hrest, hitCell, cell_flip]
    by_cases hq : q = k
    · simp [hq, hk]
    · simp [hq]

theorem foldl_hitCell_collision {ps : List (Fin 2048)} (h : ps.Nodup) :
    (ps.foldl hitCell c).2 = true ↔ c.2 = true ∨ ∃ k ∈ ps, c.1.cell k = true := by
  induction ps generalizing c with
  | nil => simp
  | cons k rest ih =>
    obtain ⟨hk, hrest⟩ := List.nodup_cons.mp h
    have hother (q : Fin 2048) (hq : q ∈ rest) : (c.1.flip k).cell q = c.1.cell q :=
      (cell_flip c.1 k q).trans (if_neg fun e : q = k => hk (e ▸ hq))
    simp only [List.foldl_cons, ih hrest, hitCell, Bool.or_eq_true, List.mem_cons, exists_eq_or_imp, or_assoc]
    refine or_congr_right (or_congr_right (exists_congr fun q => and_congr_right fun hq => ?_))
    rw [hother q hq]

end

/-! ## DXYN -/

section

variable {s t : State} {x y : Reg} {n : Rows} {k : Fin 2048}

/-- The cells of the sprite that DXYN draws. -/
def State.spriteCells (s : State) (x y : Reg) (n : Rows) : List (Fin 2048) :=
  spritePixels (s.readV x) (s.readV y) 0 (s.memReadList (s.dataAddr 0) n.val)

theorem memReadList_getElem? {a m j : Nat} {b : Byte} :
    (s.memReadList a m)[j]? = some b ↔ j < m ∧ s.memRead (a + j) = b := by
  by_cases h : j < m <;> simp [State.memReadList, h]

theorem mem_spriteCells : k ∈ s.spriteCells x y n ↔ s.spriteCovers x y n k = true := by
  simp only [State.spriteCells, mem_spritePixels, memReadList_getElem?, mem_rowPixels, State.spriteCovers, List.any_eq_true,
    List.mem_range, Bool.and_eq_true, beq_iff_eq, State.dataAddr, Nat.add_zero, Nat.zero_add]
  constructor
  · rintro ⟨row, b, ⟨hrow, rfl⟩, hcol⟩
    exact ⟨row, hrow, hcol⟩
  · rintro ⟨row, hrow, hcol⟩
    exact ⟨row, _, ⟨hrow, rfl⟩, hcol⟩

theorem spriteCells_nodup : (s.spriteCells x y n).Nodup := by
  refine spritePixels_nodup ?_
  simp [State.memReadList]
  omega

theorem drawn_eq_foldl_hitCell : s.drawn x y n = (s.spriteCells x y n).foldl hitCell (s.gfx, false) :=
  drawRows_eq_foldl_hitCell _

/-- The framebuffer after the draw is the exclusive or with the sprite (R301). -/
theorem drawn_cell : (s.drawn x y n).1.cell k = xor (s.gfx.cell k) (s.spriteCovers x y n k) := by
  rw [drawn_eq_foldl_hitCell, foldl_hitCell_cell spriteCells_nodup]
  simp [mem_spriteCells]

/-- The draw collides when a covered cell held 1 (R304). -/
theorem drawn_collision : (s.drawn x y n).2 = true ↔ ∃ k, s.gfx.cell k = true ∧ s.spriteCovers x y n k = true := by
  rw [drawn_eq_foldl_hitCell, foldl_hitCell_collision spriteCells_nodup]
  simp [mem_spriteCells, and_comm]

/-- The state after a DXYN that completes. -/
def State.afterDraw (s : State) (x y : Reg) (n : Rows) : State :=
  ((s.withFrame (s.drawn x y n).1).writeF (flagByte (s.drawn x y n).2)).done

theorem dataInRange_of_rows (h : n.val = 0 ∨ s.I.toNat + n.val - 1 ≤ 0xFFF) : s.dataInRange n.val = true := by
  rw [dataInRange_iff]
  omega

theorem exec_opDXYN_of_rows (h : n.val = 0 ∨ s.I.toNat + n.val - 1 ≤ 0xFFF) :
    exec (.opDXYN x y n) s = .next (s.afterDraw x y n) := exec_opDXYN_of_range (dataInRange_of_rows h)

@[simp] theorem afterDraw_cell : (s.afterDraw x y n).gfx.cell k = xor (s.gfx.cell k) (s.spriteCovers x y n k) := drawn_cell

theorem afterDraw_VF : (s.afterDraw x y n).readV 15 = flagByte (s.drawn x y n).2 := writeV_readV_self _ 15 _

theorem afterDraw_VF_collision (h : ∃ k, s.gfx.cell k = true ∧ s.spriteCovers x y n k = true) :
    (s.afterDraw x y n).readV 15 = 1 := by
  rw [afterDraw_VF, drawn_collision.mpr h]
  rfl

theorem afterDraw_VF_clear (h : ∀ k, s.spriteCovers x y n k = true → s.gfx.cell k = false) :
    (s.afterDraw x y n).readV 15 = 0 := by
  have hno : (s.drawn x y n).2 = false := by
    rw [← Bool.not_eq_true, drawn_collision]
    rintro ⟨k, hk, hcov⟩
    rw [h k hcov] at hk
    cases hk
  rw [afterDraw_VF, hno]
  rfl

theorem afterDraw_readV {r : Reg} (h : r ≠ 15) : (s.afterDraw x y n).readV r = s.readV r :=
  (writeV_readV _ 15 _ r).trans (if_neg h)

/-- A draw changes neither the sprite nor its place, unless VF is one of the coordinates. -/
theorem afterDraw_spriteCovers (hx : x ≠ 15) (hy : y ≠ 15) :
    (s.afterDraw x y n).spriteCovers x y n k = s.spriteCovers x y n k := by
  simp only [State.spriteCovers, afterDraw_readV hx, afterDraw_readV hy]
  rfl

end

/-- Settles O44: 8 columns and 15 rows are fewer than the 64 and 32 at which the coordinates wrap. -/
theorem spritePixelsLandOnDistinctCells : Obligations.SpritePixelsLandOnDistinctCells := by
  unfold Obligations.SpritePixelsLandOnDistinctCells
  exact fun x0 y0 row row' col col' => pixelIndex_inj

/-- Settles O43: the sprite's cells are all different, so each flips once and collides by what the framebuffer held. -/
theorem drawIsTheExclusiveOrOfTheSprite : Obligations.DrawIsTheExclusiveOrOfTheSprite := by
  unfold Obligations.DrawIsTheExclusiveOrOfTheSprite
  refine fun s x y n => ⟨fun h => ?_, fun hpos past =>
    fatalWith_of_fatalCause (.draw x y n ((dataInRange_eq_false_iff s _).mpr (by omega)))⟩
  exact ⟨_, exec_opDXYN_of_rows h, fun k => afterDraw_cell, afterDraw_VF_collision, afterDraw_VF_clear, rfl, rfl, rfl,
    exec_changesOnly (i := .opDXYN x y n) (exec_opDXYN_of_rows h)⟩

/-- Settles O45: the second draw is of the same sprite, so its exclusive or undoes the first, and a covered cell holds 1 after
the first draw exactly when it held 0 before. -/
theorem drawTwiceRestoresTheFrame : Obligations.DrawTwiceRestoresTheFrame := by
  unfold Obligations.DrawTwiceRestoresTheFrame
  intro s t x y n hx hy h ex
  rw [exec_opDXYN_of_rows h] at ex
  cases ex
  refine ⟨_, exec_opDXYN_of_rows (s := s.afterDraw x y n) h, frame_ext fun k => ?_, fun ⟨k, hcov, hk⟩ => ?_, fun hall => ?_⟩
  · simp [afterDraw_spriteCovers hx hy]
  · exact afterDraw_VF_collision ⟨k, by simp [hcov, hk], by rwa [afterDraw_spriteCovers hx hy]⟩
  · refine afterDraw_VF_clear fun k hcov => ?_
    rw [afterDraw_spriteCovers hx hy] at hcov
    simp [hcov, hall k hcov]

/-- Settles O41: the cleared framebuffer has no cell set, and clearing it again gives the same. -/
theorem clearScreenClearsEveryCell : Obligations.ClearScreenClearsEveryCell := by
  unfold Obligations.ClearScreenClearsEveryCell
  exact ⟨fun s => ⟨_, rfl, cell_clear, rfl, rfl, rfl, exec_changesOnly (i := .op00E0) rfl, _, rfl, rfl, rfl⟩,
    encodedBy_row .op00E0 fun i => by cases i <;> simp [Instr.row]⟩

end Sys2Proof.Machine
end

section
/-! PROOFS. Reset and Load (70_reset_and_hazards.md rules R440-R448). -/

namespace Sys2Proof.Machine

/-- Memory that lists nothing reads as the reset contents (R71, R441). -/
theorem memRead_of_mem_nil {s : State} (h : s.mem = []) (a : Nat) : s.memRead a = Memory.unlisted s.glyphs a := by
  rw [State.memRead, h]
  rfl

/-- The only transaction that ends a Halted state's mode is Reset (R411). -/
theorem applyTx_mode_of_halted {s t : State} {f : FatalRecord} {tx : Transaction} (hm : s.mode = .halted f)
    (h : applyTx s tx = .next t) (hne : tx ≠ .reset) : t.mode = .halted f := by
  obtain ⟨hstep, _, _, hload, hkeys, hclear⟩ := modeTransitionsAreTheListed
  cases tx with
  | reset => exact absurd rfl hne
  | load bytes =>
    cases h
    exact (hload s bytes).trans hm
  | step => exact (hstep s t f h hm).1
  | setKeys k =>
    cases h
    exact (hkeys s k).trans hm
  | clearDrawFlag =>
    cases h
    exact (hclear s).trans hm

/-- Settles O51: the reset memory lists nothing, so it reads as the glyph table and 0. -/
theorem resetRestoresTheListedValues : Obligations.ResetRestoresTheListedValues := by
  unfold Obligations.ResetRestoresTheListedValues
  intro s t
  refine ⟨fun a => ?_, fun a ha => ?_, fun r => ?_, fun j => ?_, rfl, rfl, rfl, rfl, rfl, cell_clear, rfl, rfl, rfl, rfl⟩
  · exact (memRead_of_mem_nil rfl a.val).trans (dif_pos a.isLt)
  · exact (memRead_of_mem_nil rfl a).trans (dif_neg (Nat.not_lt.mpr ha))
  · exact Vector.getElem_replicate r.isLt
  · exact Vector.getElem_replicate j.isLt

/-- Settles O52: Reset reads only what it keeps. -/
theorem resetIsIdempotentAndAloneLeavesHalted : Obligations.ResetIsIdempotentAndAloneLeavesHalted := by
  unfold Obligations.ResetIsIdempotentAndAloneLeavesHalted
  refine ⟨fun s => rfl, fun s t f tx hm h hne => ?_⟩
  by_contra htx
  exact hne (applyTx_mode_of_halted hm h htx)

/-- Settles O54: a program that fits is one list write at 0x200. -/
theorem loadCopiesTheProgram : Obligations.LoadCopiesTheProgram := by
  unfold Obligations.LoadCopiesTheProgram
  refine fun s bytes fits => ⟨congrArg Prod.snd (loadTx_fits s bytes fits), fun k => loadTx_memRead fits, ?_⟩
  rw [loadTx_fits s bytes fits]
  exact memWriteList_changesOnly s 0x200 bytes

end Sys2Proof.Machine
end
